-- ==== Sys2Proof/Word.lean ====
section
/-! DEFINITION. The two word types of the machine: bytes and 16-bit words (`00_scope.md` R6, R8). -/

namespace Sys2Proof

/-- A byte: a general register, a memory byte, an opcode, a port number (R6). -/
abbrev Byte := BitVec 8

/-- A 16-bit word: SP, PC, a register pair, a memory address (R6). -/
abbrev Word := BitVec 16

end Sys2Proof
end

