-- ==== Sys2Proof/Machine/Bits.lean ====
section
/-! DEFINITION. Byte halves of a 16-bit word and their concatenation (`00_scope.md` R8), used by the decoder, the pair
views, the stack and the two-byte memory accesses. -/

namespace Sys2Proof.Machine

/-- `v[15:8]` (R8). -/
def hiByte (v : Word) : Byte := v.extractLsb' 8 8

/-- `v[7:0]` (R8). -/
def loByte (v : Word) : Byte := v.extractLsb' 0 8

/-- The concatenation `hi:lo` = `hi * 256 + lo` (R8). -/
def joinBytes (hi lo : Byte) : Word := hi ++ lo

end Sys2Proof.Machine
end

