-- ==== Sys2Proof/Syntax.lean ====
section
/-! DEFINITION. The instructions (`30_encoding.md` R70 to R78): one constructor for each rule of the opcode table. Rows of
the table that differ only in a register, pair or RST number are one constructor with that operand; the register form and
the M form of an operation, which have rules of their own, are two. -/

namespace Sys2Proof

/-- The seven general registers (R20). Code 6 of R73 is no register: it is the memory operand M, which has constructors
of its own. -/
inductive Reg
  | b | c | d | e | h | l | a
deriving DecidableEq, Repr

/-- The pairs of LXI, INX, DCX and DAD (R74). -/
inductive Pair
  | bc | de | hl | sp
deriving DecidableEq, Repr

/-- The pairs of PUSH and POP other than PSW (R74, R200, R202). -/
inductive StackPair
  | bc | de | hl
deriving DecidableEq, Repr

/-- The pairs of LDAX and STAX (R74, R230, R231). -/
inductive IndexPair
  | bc | de
deriving DecidableEq, Repr

/-- The eight conditions (R75, R160). -/
inductive Cond
  | nz | z | nc | c | po | pe | p | m
deriving DecidableEq, Repr

/-- The instructions, each with its operands decoded. `d8`, `d16`, `a16`, `p8` are the operand bytes of R76. -/
inductive Instr
  -- 44_data_transfer.md
  | movRR (dst src : Reg)              -- MOV r,r   R220
  | movRM (dst : Reg)                  -- MOV r,M   R221
  | movMR (src : Reg)                  -- MOV M,r   R222
  | mviR (dst : Reg) (d8 : Byte)       -- MVI r,d8  R223
  | mviM (d8 : Byte)                   -- MVI M,d8  R224
  | lxi (rp : Pair) (d16 : Word)       -- LXI       R225
  | lda (a16 : Word)                   -- LDA       R226
  | sta (a16 : Word)                   -- STA       R227
  | lhld (a16 : Word)                  -- LHLD      R228
  | shld (a16 : Word)                  -- SHLD      R229
  | ldax (rp : IndexPair)              -- LDAX      R230
  | stax (rp : IndexPair)              -- STAX      R231
  | xchg                               -- XCHG      R232
  -- 40_arithmetic.md
  | addR (src : Reg)                   -- ADD r     R105
  | addM                               -- ADD M     R106
  | adi (d8 : Byte)                    -- ADI       R107
  | adcR (src : Reg)                   -- ADC r     R108
  | adcM                               -- ADC M     R109
  | aci (d8 : Byte)                    -- ACI       R110
  | subR (src : Reg)                   -- SUB r     R111
  | subM                               -- SUB M     R112
  | sui (d8 : Byte)                    -- SUI       R113
  | sbbR (src : Reg)                   -- SBB r     R114
  | sbbM                               -- SBB M     R115
  | sbi (d8 : Byte)                    -- SBI       R116
  | cmpR (src : Reg)                   -- CMP r     R117
  | cmpM                               -- CMP M     R118
  | cpi (d8 : Byte)                    -- CPI       R119
  | inrR (dst : Reg)                   -- INR r     R125
  | inrM                               -- INR M     R126
  | dcrR (dst : Reg)                   -- DCR r     R127
  | dcrM                               -- DCR M     R128
  | inx (rp : Pair)                    -- INX       R130
  | dcx (rp : Pair)                    -- DCX       R131
  | dad (rp : Pair)                    -- DAD       R133
  | daa                                -- DAA       R135
  -- 41_logical_rotate.md
  | anaR (src : Reg)                   -- ANA r     R143
  | anaM                               -- ANA M     R144
  | ani (d8 : Byte)                    -- ANI       R145
  | xraR (src : Reg)                   -- XRA r     R146
  | xraM                               -- XRA M     R147
  | xri (d8 : Byte)                    -- XRI       R148
  | oraR (src : Reg)                   -- ORA r     R149
  | oraM                               -- ORA M     R157
  | ori (d8 : Byte)                    -- ORI       R158
  | rlc                                -- RLC       R150
  | rrc                                -- RRC       R151
  | ral                                -- RAL       R152
  | rar                                -- RAR       R153
  | cma                                -- CMA       R154
  | stc                                -- STC       R155
  | cmc                                -- CMC       R156
  -- 42_branch.md
  | jmp (a16 : Word)                   -- JMP       R161
  | jnz (a16 : Word)                   -- JNZ       R163
  | jz (a16 : Word)                    -- JZ        R164
  | jnc (a16 : Word)                   -- JNC       R165
  | jc (a16 : Word)                    -- JC        R166
  | jpo (a16 : Word)                   -- JPO       R167
  | jpe (a16 : Word)                   -- JPE       R168
  | jp (a16 : Word)                    -- JP        R169
  | jm (a16 : Word)                    -- JM        R170
  | call (a16 : Word)                  -- CALL      R171
  | cnz (a16 : Word)                   -- CNZ       R173
  | cz (a16 : Word)                    -- CZ        R174
  | cnc (a16 : Word)                   -- CNC       R175
  | cc (a16 : Word)                    -- CC        R176
  | cpo (a16 : Word)                   -- CPO       R177
  | cpe (a16 : Word)                   -- CPE       R178
  | cp (a16 : Word)                    -- CP        R179
  | cm (a16 : Word)                    -- CM        R180
  | ret                                -- RET       R181
  | rnz                                -- RNZ       R183
  | rz                                 -- RZ        R184
  | rnc                                -- RNC       R185
  | rc                                 -- RC        R186
  | rpo                                -- RPO       R187
  | rpe                                -- RPE       R188
  | rp                                 -- RP        R189
  | rm                                 -- RM        R190
  | rst (n : BitVec 3)                 -- RST n     R193
  | pchl                               -- PCHL      R194
  -- 43_stack_io_control.md
  | push (rp : StackPair)              -- PUSH      R200
  | pushPsw                            -- PUSH PSW  R201
  | pop (rp : StackPair)               -- POP       R202
  | popPsw                             -- POP PSW   R203
  | xthl                               -- XTHL      R204
  | sphl                               -- SPHL      R205
  | inp (p8 : Byte)                    -- IN        R208
  | outp (p8 : Byte)                   -- OUT       R209
  | ei                                 -- EI        R210
  | di                                 -- DI        R211
  | hlt                                -- HLT       R212
  | nop                                -- NOP       R213
  | undef (op : Byte)                  -- the undefined opcodes  R214
deriving DecidableEq, Repr

end Sys2Proof
end

