-- ==== Sys2Proof/WellFormed.lean ====
section
/-! DEFINITION. Which terms of `Instr` are instructions. The operand types already shut out a register, pair or RST number
that an encoding cannot hold; what is left to check is that an undefined opcode is one of the twelve (`30_encoding.md` R78). -/

namespace Sys2Proof

/-- The twelve opcode values that name no instruction of the set (R78, R214, D15). -/
def undefinedOpcodes : List Byte :=
  [0x08#8, 0x10#8, 0x18#8, 0x20#8, 0x28#8, 0x30#8, 0x38#8, 0xCB#8, 0xD9#8, 0xDD#8, 0xED#8, 0xFD#8]

/-- Is the term an instruction of the opcode map (R77)? -/
def Instr.wellFormed : Instr → Bool
  | .movRR _ _ | .movRM _ | .movMR _ | .mviR _ _ | .mviM _ | .lxi _ _ => true
  | .lda _ | .sta _ | .lhld _ | .shld _ | .ldax _ | .stax _ | .xchg => true
  | .addR _ | .addM | .adi _ | .adcR _ | .adcM | .aci _ => true
  | .subR _ | .subM | .sui _ | .sbbR _ | .sbbM | .sbi _ | .cmpR _ | .cmpM | .cpi _ => true
  | .inrR _ | .inrM | .dcrR _ | .dcrM | .inx _ | .dcx _ | .dad _ | .daa => true
  | .anaR _ | .anaM | .ani _ | .xraR _ | .xraM | .xri _ | .oraR _ | .oraM | .ori _ => true
  | .rlc | .rrc | .ral | .rar | .cma | .stc | .cmc => true
  | .jmp _ | .jnz _ | .jz _ | .jnc _ | .jc _ | .jpo _ | .jpe _ | .jp _ | .jm _ => true
  | .call _ | .cnz _ | .cz _ | .cnc _ | .cc _ | .cpo _ | .cpe _ | .cp _ | .cm _ => true
  | .ret | .rnz | .rz | .rnc | .rc | .rpo | .rpe | .rp | .rm | .rst _ | .pchl => true
  | .push _ | .pushPsw | .pop _ | .popPsw | .xthl | .sphl | .inp _ | .outp _ => true
  | .ei | .di | .hlt | .nop => true
  | .undef op => undefinedOpcodes.contains op

end Sys2Proof
end

