-- ==== Sys2Proof/Decode.lean ====
section
/-! DEFINITION. The decoder, a total function of the bytes (`30_encoding.md` R70 to R79), and the encoder written from the
same tables. -/

namespace Sys2Proof

open Sys2Proof.Machine (hiByte loByte joinBytes)

/-! ## Fields of the opcode byte (R72) -/

/-- `op[7:6]`, the group (R72). -/
def opGroup (op : Byte) : BitVec 2 := op.extractLsb' 6 2

/-- `op[5:3]`, the field `ddd`, `ccc` or `nnn` (R72). -/
def opMid (op : Byte) : BitVec 3 := op.extractLsb' 3 3

/-- `op[2:0]`, the field `sss` (R72). -/
def opLow (op : Byte) : BitVec 3 := op.extractLsb' 0 3

/-- `op[5:4]`, the pair field `pp` (R72, R74). -/
def opPair (op : Byte) : BitVec 2 := op.extractLsb' 4 2

/-- The register a 3-bit code selects; `none` is the memory operand M (R73). -/
def regOfCode (code : BitVec 3) : Option Reg :=
  match code with
  | 0b000#3 => some .b
  | 0b001#3 => some .c
  | 0b010#3 => some .d
  | 0b011#3 => some .e
  | 0b100#3 => some .h
  | 0b101#3 => some .l
  | 0b110#3 => none
  | _ => some .a

/-- The pair a 2-bit code selects in LXI, INX, DCX, DAD (R74). -/
def pairOfCode (code : BitVec 2) : Pair :=
  match code with
  | 0b00#2 => .bc
  | 0b01#2 => .de
  | 0b10#2 => .hl
  | _ => .sp

/-- The pair a 2-bit code selects in PUSH and POP; `none` is PSW (R74). -/
def stackPairOfCode (code : BitVec 2) : Option StackPair :=
  match code with
  | 0b00#2 => some .bc
  | 0b01#2 => some .de
  | 0b10#2 => some .hl
  | _ => none

/-! ## The four groups (R77) -/

/-- Group 00 (R77). -/
def decodeGroup00 (op b1 b2 : Byte) : Instr :=
  match opLow op with
  | 0b000#3 => if opMid op = 0b000#3 then .nop else .undef op
  | 0b001#3 =>
    if op.getLsbD 3 then .dad (pairOfCode (opPair op)) else .lxi (pairOfCode (opPair op)) (joinBytes b2 b1)
  | 0b010#3 =>
    match opMid op with
    | 0b000#3 => .stax .bc
    | 0b001#3 => .ldax .bc
    | 0b010#3 => .stax .de
    | 0b011#3 => .ldax .de
    | 0b100#3 => .shld (joinBytes b2 b1)
    | 0b101#3 => .lhld (joinBytes b2 b1)
    | 0b110#3 => .sta (joinBytes b2 b1)
    | _ => .lda (joinBytes b2 b1)
  | 0b011#3 => if op.getLsbD 3 then .dcx (pairOfCode (opPair op)) else .inx (pairOfCode (opPair op))
  | 0b100#3 =>
    match regOfCode (opMid op) with
    | some r => .inrR r
    | none => .inrM
  | 0b101#3 =>
    match regOfCode (opMid op) with
    | some r => .dcrR r
    | none => .dcrM
  | 0b110#3 =>
    match regOfCode (opMid op) with
    | some r => .mviR r b1
    | none => .mviM b1
  | _ =>
    match opMid op with
    | 0b000#3 => .rlc
    | 0b001#3 => .rrc
    | 0b010#3 => .ral
    | 0b011#3 => .rar
    | 0b100#3 => .daa
    | 0b101#3 => .cma
    | 0b110#3 => .stc
    | _ => .cmc

/-- Group 01: MOV, but for 0x76, which is HLT (R77, R222). -/
def decodeGroup01 (op : Byte) : Instr :=
  match regOfCode (opMid op), regOfCode (opLow op) with
  | some dst, some src => .movRR dst src
  | some dst, none => .movRM dst
  | none, some src => .movMR src
  | none, none => .hlt

/-- Group 10: the accumulator operations on a register or M (R77, table "ALU"). -/
def decodeGroup10 (op : Byte) : Instr :=
  match opMid op, regOfCode (opLow op) with
  | 0b000#3, some r => .addR r
  | 0b000#3, none => .addM
  | 0b001#3, some r => .adcR r
  | 0b001#3, none => .adcM
  | 0b010#3, some r => .subR r
  | 0b010#3, none => .subM
  | 0b011#3, some r => .sbbR r
  | 0b011#3, none => .sbbM
  | 0b100#3, some r => .anaR r
  | 0b100#3, none => .anaM
  | 0b101#3, some r => .xraR r
  | 0b101#3, none => .xraM
  | 0b110#3, some r => .oraR r
  | 0b110#3, none => .oraM
  | _, some r => .cmpR r
  | _, none => .cmpM

/-- Group 11: branches, stack, immediate arithmetic, I/O, control (R77). -/
def decodeGroup11 (op b1 b2 : Byte) : Instr :=
  match opLow op with
  | 0b000#3 =>
    match opMid op with
    | 0b000#3 => .rnz
    | 0b001#3 => .rz
    | 0b010#3 => .rnc
    | 0b011#3 => .rc
    | 0b100#3 => .rpo
    | 0b101#3 => .rpe
    | 0b110#3 => .rp
    | _ => .rm
  | 0b001#3 =>
    if op.getLsbD 3 then
      match opPair op with
      | 0b00#2 => .ret
      | 0b01#2 => .undef op
      | 0b10#2 => .pchl
      | _ => .sphl
    else
      match stackPairOfCode (opPair op) with
      | some rp => .pop rp
      | none => .popPsw
  | 0b010#3 =>
    match opMid op with
    | 0b000#3 => .jnz (joinBytes b2 b1)
    | 0b001#3 => .jz (joinBytes b2 b1)
    | 0b010#3 => .jnc (joinBytes b2 b1)
    | 0b011#3 => .jc (joinBytes b2 b1)
    | 0b100#3 => .jpo (joinBytes b2 b1)
    | 0b101#3 => .jpe (joinBytes b2 b1)
    | 0b110#3 => .jp (joinBytes b2 b1)
    | _ => .jm (joinBytes b2 b1)
  | 0b011#3 =>
    match opMid op with
    | 0b000#3 => .jmp (joinBytes b2 b1)
    | 0b001#3 => .undef op
    | 0b010#3 => .outp b1
    | 0b011#3 => .inp b1
    | 0b100#3 => .xthl
    | 0b101#3 => .xchg
    | 0b110#3 => .di
    | _ => .ei
  | 0b100#3 =>
    match opMid op with
    | 0b000#3 => .cnz (joinBytes b2 b1)
    | 0b001#3 => .cz (joinBytes b2 b1)
    | 0b010#3 => .cnc (joinBytes b2 b1)
    | 0b011#3 => .cc (joinBytes b2 b1)
    | 0b100#3 => .cpo (joinBytes b2 b1)
    | 0b101#3 => .cpe (joinBytes b2 b1)
    | 0b110#3 => .cp (joinBytes b2 b1)
    | _ => .cm (joinBytes b2 b1)
  | 0b101#3 =>
    if op.getLsbD 3 then
      if opPair op = 0b00#2 then .call (joinBytes b2 b1) else .undef op
    else
      match stackPairOfCode (opPair op) with
      | some rp => .push rp
      | none => .pushPsw
  | 0b110#3 =>
    match opMid op with
    | 0b000#3 => .adi b1
    | 0b001#3 => .aci b1
    | 0b010#3 => .sui b1
    | 0b011#3 => .sbi b1
    | 0b100#3 => .ani b1
    | 0b101#3 => .xri b1
    | 0b110#3 => .ori b1
    | _ => .cpi b1
  | _ => .rst (opMid op)

/-- The instruction whose opcode byte is `op`, its operand bytes, if it has any, being `b1` and then `b2`: byte 1 is the
low byte of a 16-bit operand (R71, R76). Total: no opcode is rejected (R79). -/
def decodeOp (op b1 b2 : Byte) : Instr :=
  match opGroup op with
  | 0b00#2 => decodeGroup00 op b1 b2
  | 0b01#2 => decodeGroup01 op
  | 0b10#2 => decodeGroup10 op
  | _ => decodeGroup11 op b1 b2

/-! ## Lengths (R70, R71) -/

/-- The instruction's length in bytes: 1 for format F1, 2 for F2, 3 for F3 (R70, R71). -/
def Instr.length : Instr → Nat
  | .movRR _ _ | .movRM _ | .movMR _ => 1
  | .mviR _ _ | .mviM _ => 2
  | .lxi _ _ | .lda _ | .sta _ | .lhld _ | .shld _ => 3
  | .ldax _ | .stax _ | .xchg => 1
  | .addR _ | .addM | .adcR _ | .adcM | .subR _ | .subM | .sbbR _ | .sbbM | .cmpR _ | .cmpM => 1
  | .adi _ | .aci _ | .sui _ | .sbi _ | .cpi _ => 2
  | .inrR _ | .inrM | .dcrR _ | .dcrM | .inx _ | .dcx _ | .dad _ | .daa => 1
  | .anaR _ | .anaM | .xraR _ | .xraM | .oraR _ | .oraM => 1
  | .ani _ | .xri _ | .ori _ => 2
  | .rlc | .rrc | .ral | .rar | .cma | .stc | .cmc => 1
  | .jmp _ | .jnz _ | .jz _ | .jnc _ | .jc _ | .jpo _ | .jpe _ | .jp _ | .jm _ => 3
  | .call _ | .cnz _ | .cz _ | .cnc _ | .cc _ | .cpo _ | .cpe _ | .cp _ | .cm _ => 3
  | .ret | .rnz | .rz | .rnc | .rc | .rpo | .rpe | .rp | .rm | .rst _ | .pchl => 1
  | .push _ | .pushPsw | .pop _ | .popPsw | .xthl | .sphl => 1
  | .inp _ | .outp _ => 2
  | .ei | .di | .hlt | .nop | .undef _ => 1

/-! ## Decoding a sequence of bytes -/

/-- Why a sequence of bytes holds no instruction: it ends too soon. No opcode is a reason (R79). -/
inductive DecodeError
  /-- There is no opcode byte. -/
  | noOpcode
  /-- The operand bytes of the opcode `op` are not all there. -/
  | missingOperand (op : Byte)
deriving DecidableEq, Repr

/-- The first instruction of a sequence of bytes, and the bytes after it (R70, R71). -/
def decode : List Byte → Except DecodeError (Instr × List Byte)
  | [] => .error .noOpcode
  | op :: rest =>
    let i := decodeOp op (rest.getD 0 0#8) (rest.getD 1 0#8)
    if i.length ≤ rest.length + 1 then .ok (i, rest.drop (i.length - 1)) else .error (.missingOperand op)

/-- The first three bytes of an instruction whose bits are `w`, low byte first, the bits from `nbits` up being 0
(`opcode_table.json`'s numbering: byte 0 is bits 7:0). -/
def tableBytes (nbits w : Nat) : List Byte :=
  [BitVec.ofNat 8 (w % 2 ^ nbits), BitVec.ofNat 8 (w % 2 ^ nbits / 256), BitVec.ofNat 8 (w % 2 ^ nbits / 65536)]

/-- What the decoder reads from an instruction whose bits are `w`. -/
def decodeTableWord (nbits w : Nat) : Option Instr :=
  match decode (tableBytes nbits w) with
  | .ok (i, _) => some i
  | .error _ => none

/-! ## Encoding -/

/-- The 3-bit code of a register (R73). -/
def Reg.code : Reg → BitVec 3
  | .b => 0b000#3
  | .c => 0b001#3
  | .d => 0b010#3
  | .e => 0b011#3
  | .h => 0b100#3
  | .l => 0b101#3
  | .a => 0b111#3

/-- The 2-bit code of a pair (R74). -/
def Pair.code : Pair → BitVec 2
  | .bc => 0b00#2
  | .de => 0b01#2
  | .hl => 0b10#2
  | .sp => 0b11#2

/-- The 2-bit code of a pair of PUSH or POP (R74). -/
def StackPair.code : StackPair → BitVec 2
  | .bc => 0b00#2
  | .de => 0b01#2
  | .hl => 0b10#2

/-- The one bit that tells the pair of LDAX or STAX: `00 0p0 010` (R77). -/
def IndexPair.code : IndexPair → BitVec 1
  | .bc => 0b0#1
  | .de => 0b1#1

/-- An opcode byte put together from its fields `xx ddd sss` (R72). -/
def octalByte (xx : BitVec 2) (ddd sss : BitVec 3) : Byte := xx ++ ddd ++ sss

/-- The opcode byte `xx ppq sss` of a pair instruction, `q` its selector bit (R72). -/
def pairByte (xx pp : BitVec 2) (q : BitVec 1) (sss : BitVec 3) : Byte := xx ++ pp ++ q ++ sss

/-- Format F2 (R71). -/
def encodeF2 (op d8 : Byte) : List Byte := [op, d8]

/-- Format F3: the low byte of the operand comes first (R71, R76). -/
def encodeF3 (op : Byte) (d16 : Word) : List Byte := [op, loByte d16, hiByte d16]

/-- The bytes of an instruction, by the map of R77. -/
def encode : Instr → List Byte
  | .movRR dst src => [octalByte 0b01#2 dst.code src.code]
  | .movRM dst => [octalByte 0b01#2 dst.code 0b110#3]
  | .movMR src => [octalByte 0b01#2 0b110#3 src.code]
  | .mviR dst d8 => encodeF2 (octalByte 0b00#2 dst.code 0b110#3) d8
  | .mviM d8 => encodeF2 0x36#8 d8
  | .lxi rp d16 => encodeF3 (pairByte 0b00#2 rp.code 0b0#1 0b001#3) d16
  | .lda a16 => encodeF3 0x3A#8 a16
  | .sta a16 => encodeF3 0x32#8 a16
  | .lhld a16 => encodeF3 0x2A#8 a16
  | .shld a16 => encodeF3 0x22#8 a16
  | .ldax rp => [pairByte 0b00#2 (0b0#1 ++ rp.code) 0b1#1 0b010#3]
  | .stax rp => [pairByte 0b00#2 (0b0#1 ++ rp.code) 0b0#1 0b010#3]
  | .xchg => [0xEB#8]
  | .addR r => [octalByte 0b10#2 0b000#3 r.code]
  | .addM => [0x86#8]
  | .adi d8 => encodeF2 0xC6#8 d8
  | .adcR r => [octalByte 0b10#2 0b001#3 r.code]
  | .adcM => [0x8E#8]
  | .aci d8 => encodeF2 0xCE#8 d8
  | .subR r => [octalByte 0b10#2 0b010#3 r.code]
  | .subM => [0x96#8]
  | .sui d8 => encodeF2 0xD6#8 d8
  | .sbbR r => [octalByte 0b10#2 0b011#3 r.code]
  | .sbbM => [0x9E#8]
  | .sbi d8 => encodeF2 0xDE#8 d8
  | .cmpR r => [octalByte 0b10#2 0b111#3 r.code]
  | .cmpM => [0xBE#8]
  | .cpi d8 => encodeF2 0xFE#8 d8
  | .inrR r => [octalByte 0b00#2 r.code 0b100#3]
  | .inrM => [0x34#8]
  | .dcrR r => [octalByte 0b00#2 r.code 0b101#3]
  | .dcrM => [0x35#8]
  | .inx rp => [pairByte 0b00#2 rp.code 0b0#1 0b011#3]
  | .dcx rp => [pairByte 0b00#2 rp.code 0b1#1 0b011#3]
  | .dad rp => [pairByte 0b00#2 rp.code 0b1#1 0b001#3]
  | .daa => [0x27#8]
  | .anaR r => [octalByte 0b10#2 0b100#3 r.code]
  | .anaM => [0xA6#8]
  | .ani d8 => encodeF2 0xE6#8 d8
  | .xraR r => [octalByte 0b10#2 0b101#3 r.code]
  | .xraM => [0xAE#8]
  | .xri d8 => encodeF2 0xEE#8 d8
  | .oraR r => [octalByte 0b10#2 0b110#3 r.code]
  | .oraM => [0xB6#8]
  | .ori d8 => encodeF2 0xF6#8 d8
  | .rlc => [0x07#8]
  | .rrc => [0x0F#8]
  | .ral => [0x17#8]
  | .rar => [0x1F#8]
  | .cma => [0x2F#8]
  | .stc => [0x37#8]
  | .cmc => [0x3F#8]
  | .jmp a16 => encodeF3 0xC3#8 a16
  | .jnz a16 => encodeF3 0xC2#8 a16
  | .jz a16 => encodeF3 0xCA#8 a16
  | .jnc a16 => encodeF3 0xD2#8 a16
  | .jc a16 => encodeF3 0xDA#8 a16
  | .jpo a16 => encodeF3 0xE2#8 a16
  | .jpe a16 => encodeF3 0xEA#8 a16
  | .jp a16 => encodeF3 0xF2#8 a16
  | .jm a16 => encodeF3 0xFA#8 a16
  | .call a16 => encodeF3 0xCD#8 a16
  | .cnz a16 => encodeF3 0xC4#8 a16
  | .cz a16 => encodeF3 0xCC#8 a16
  | .cnc a16 => encodeF3 0xD4#8 a16
  | .cc a16 => encodeF3 0xDC#8 a16
  | .cpo a16 => encodeF3 0xE4#8 a16
  | .cpe a16 => encodeF3 0xEC#8 a16
  | .cp a16 => encodeF3 0xF4#8 a16
  | .cm a16 => encodeF3 0xFC#8 a16
  | .ret => [0xC9#8]
  | .rnz => [0xC0#8]
  | .rz => [0xC8#8]
  | .rnc => [0xD0#8]
  | .rc => [0xD8#8]
  | .rpo => [0xE0#8]
  | .rpe => [0xE8#8]
  | .rp => [0xF0#8]
  | .rm => [0xF8#8]
  | .rst n => [octalByte 0b11#2 n 0b111#3]
  | .pchl => [0xE9#8]
  | .push rp => [pairByte 0b11#2 rp.code 0b0#1 0b101#3]
  | .pushPsw => [0xF5#8]
  | .pop rp => [pairByte 0b11#2 rp.code 0b0#1 0b001#3]
  | .popPsw => [0xF1#8]
  | .xthl => [0xE3#8]
  | .sphl => [0xF9#8]
  | .inp p8 => encodeF2 0xDB#8 p8
  | .outp p8 => encodeF2 0xD3#8 p8
  | .ei => [0xFB#8]
  | .di => [0xF3#8]
  | .hlt => [0x76#8]
  | .nop => [0x00#8]
  | .undef op => [op]

end Sys2Proof
end

