-- ==== Sys2Proof/Config.lean ====
section
/-! DEFINITION. What an implementation of the block fixes (the open parameters of `00_scope.md` R7, `92_eei_decisions.md`
"Open parameters in one list") and the values the environment supplies under no law. -/

namespace Sys2Proof

/-- The parameters of R7 that are constants of one machine. They stand in `State` as plain data that no transition writes,
so a statement about every state is a statement about every value of every parameter. -/
structure Config where
  /-- Is the core run under the host driver of R278, or by bare `step()` calls? "A machine used without a driver (bare
  `step()` calls) has no trampoline" (R278). -/
  driver : Bool
  /-- `SYSCALL_ADDR`, the trampoline address (R7, D20). -/
  syscallAddr : Word
  /-- `CONSOLE_READY`, what function 11 returns (R7, D27). -/
  consoleReady : Word
  /-- `DEFAULT_DMA`, the DMA address after a dispatcher reset (R7, D24). -/
  defaultDma : Word
  /-- `NUM_DRIVES`, the number of drives of the backend (R7, D25). -/
  numDrives : Nat
  /-- `CYCLES`, the cost of each opcode, entry `op` for opcode `op` (R7, R307, R308, D14). -/
  cycles : List Nat
deriving DecidableEq, Repr

namespace Config

/-- `CYCLES[op]` (R81, R307). -/
def cost (c : Config) (op : Byte) : Nat := c.cycles.getD op.toNat 0

/-- FREE VALUE. `PortIn`: the byte the environment answers on a port at an occurrence, when `Inputs.portIn` holds none
(R7, R208, D12: "a free input of the step, indexed by port and by occurrence, under no law"). -/
opaque freePortIn : Byte → Nat → Byte

/-- FREE VALUE. `ConIn`: the character the host supplies at an occurrence, when `Inputs.conIn` holds none (R7, R241,
R251, D26). -/
opaque freeConIn : Nat → Byte

/-- FREE VALUE. `LineIn`: the line the host supplies at an occurrence, when `Inputs.lineIn` holds none (R7, R241, R254,
D28). -/
opaque freeLineIn : Nat → List Byte

end Config

end Sys2Proof
end

