-- ==== Sys2Proof/Machine/Defaults.lean ====
section
/-! DEFINITION. The default values of the open parameters (`00_scope.md` R7; the cycle table is
`70_reset_and_hazards.md` R308). -/

namespace Sys2Proof.Machine

/-- Rows 0 to 3 of the default `CYCLES` table (R308). -/
def cyclesRows0to3 : List Nat :=
  [4, 10, 7, 5, 5, 5, 7, 4, 4, 10, 7, 5, 5, 5, 7, 4] ++
  [4, 10, 7, 5, 5, 5, 7, 4, 4, 10, 7, 5, 5, 5, 7, 4] ++
  [4, 10, 16, 5, 5, 5, 7, 4, 4, 10, 16, 5, 5, 5, 7, 4] ++
  [4, 10, 13, 5, 10, 10, 10, 4, 4, 10, 13, 5, 5, 5, 7, 4]

/-- Rows 4 to 7 (R308). -/
def cyclesRows4to7 : List Nat :=
  [5, 5, 5, 5, 5, 5, 7, 5, 5, 5, 5, 5, 5, 5, 7, 5] ++
  [5, 5, 5, 5, 5, 5, 7, 5, 5, 5, 5, 5, 5, 5, 7, 5] ++
  [5, 5, 5, 5, 5, 5, 7, 5, 5, 5, 5, 5, 5, 5, 7, 5] ++
  [7, 7, 7, 7, 7, 7, 7, 7, 5, 5, 5, 5, 5, 5, 7, 5]

/-- Rows 8 to B (R308). -/
def cyclesRows8toB : List Nat :=
  [4, 4, 4, 4, 4, 4, 7, 4, 4, 4, 4, 4, 4, 4, 7, 4] ++
  [4, 4, 4, 4, 4, 4, 7, 4, 4, 4, 4, 4, 4, 4, 7, 4] ++
  [4, 4, 4, 4, 4, 4, 7, 4, 4, 4, 4, 4, 4, 4, 7, 4] ++
  [4, 4, 4, 4, 4, 4, 7, 4, 4, 4, 4, 4, 4, 4, 7, 4]

/-- Rows C to F (R308). -/
def cyclesRowsCtoF : List Nat :=
  [11, 10, 10, 10, 17, 11, 7, 11, 11, 10, 10, 4, 17, 17, 7, 11] ++
  [11, 10, 10, 10, 17, 11, 7, 11, 11, 4, 10, 10, 17, 4, 7, 11] ++
  [11, 10, 10, 18, 17, 11, 7, 11, 11, 5, 10, 4, 17, 4, 7, 11] ++
  [11, 10, 10, 4, 17, 11, 7, 11, 11, 5, 10, 4, 17, 4, 7, 11]

/-- The default `CYCLES` table (R308, D14). -/
def cyclesDefault : List Nat := cyclesRows0to3 ++ cyclesRows4to7 ++ cyclesRows8toB ++ cyclesRowsCtoF

/-- The default of every parameter (R7): SYSCALL_ADDR 0x0005, CONSOLE_READY 0x00FF, DEFAULT_DMA 0x0080, NUM_DRIVES 16,
the table of R308. DESIGN CHOICE (log 3): a machine of these defaults is under the driver of R278. -/
def defaultConfig : Config where
  driver := true
  syscallAddr := 0x0005#16
  consoleReady := 0x00FF#16
  defaultDma := 0x0080#16
  numDrives := 16
  cycles := cyclesDefault

end Sys2Proof.Machine
end

