-- ==== Sys2Proof/Machine/State.lean ====
section
/-! DEFINITION. The state of the machine (`10_state.md`), as plain data: the core's registers, flags and booleans, memory,
the dispatcher's state, the output trace and the host's cycle sum, and beside them the parameters of the machine, the
inputs the environment has ready, and the host's next transitions. -/

namespace Sys2Proof.Machine

/-- The five flags, one bit each (R25, D4: the packed byte is not stored). -/
structure Flags where
  /-- S, bit 7 of the packed byte. -/
  sign : Bool
  /-- Z, bit 6. -/
  zero : Bool
  /-- AC, bit 4. -/
  auxCarry : Bool
  /-- P, bit 2. -/
  parity : Bool
  /-- CY, bit 0. -/
  carry : Bool
deriving DecidableEq, Repr

/-- Memory as the list of the bytes that are not 0x00, by rising address: what a byte not listed reads as is 0x00, the
value of every byte at construction (R35, R42). -/
abbrev Memory := List Host.Cell

/-- One file of the storage backend: `Files[drive][key] = blob` (R248, R246). -/
structure FileEntry where
  drive : Nat
  /-- The 11 bytes of the name and extension fields (R246). -/
  key : List Byte
  blob : List Byte
deriving DecidableEq, Repr

/-- The dispatcher's state (R37). -/
structure Dispatcher where
  /-- `CurDrive`, an index below `NUM_DRIVES`. -/
  curDrive : Nat
  /-- `Dma`. -/
  dma : Word
  /-- `User`. -/
  user : BitVec 5
  /-- `Files`, sorted by drive and key, no key twice on a drive. -/
  files : List FileEntry
deriving DecidableEq, Repr

/-- The output events (R12). -/
inductive Event
  /-- The halt notification (R212). -/
  | haltEvent
  /-- A byte written to a port (R209). -/
  | outPort (port value : Byte)
  /-- A character written to the console (R243). -/
  | conOut (byte : Byte)
  /-- A string written to the console (R243). -/
  | conOutString (bytes : List Byte)
deriving DecidableEq, Repr

/-- MODEL'S OWN (log 5). What the environment has ready for the next draws of R12, oldest first, and how many draws there
have been; a draw for which nothing is ready takes the free value of `Config` at that count. -/
structure Inputs where
  portIn : List Byte
  portDraws : Nat
  conIn : List Byte
  conDraws : Nat
  lineIn : List (List Byte)
  lineDraws : Nat
deriving DecidableEq, Repr

/-- The registers and the flag byte a host accessor may write (R34, D36). -/
inductive Accessor
  | reg (r : Reg) (v : Byte)
  | sp (v : Word)
  | pc (v : Word)
  | flags (v : Byte)
deriving DecidableEq, Repr

/-- The labelled transitions of R13. `run` is one turn of whoever runs the core: `Step` or `Syscall` (R277, R278). -/
inductive Transition
  | run
  | reset
  | interrupt (op : Byte)
  | hostWrite (addr : Word) (v : Byte)
  | hostLoad (addr : Word) (bytes : List Byte)
  | hostClear
  | hostSet (x : Accessor)
deriving DecidableEq, Repr

/-- The machine's state. -/
structure State where
  /-- The general registers (R20). -/
  a : Byte
  b : Byte
  c : Byte
  d : Byte
  e : Byte
  h : Byte
  l : Byte
  /-- The stack pointer (R23). -/
  sp : Word
  /-- The program counter (R24). -/
  pc : Word
  /-- The flags (R25). -/
  flags : Flags
  /-- Halted (R29). -/
  halted : Bool
  /-- IE, InterruptsEnabled (R30). -/
  ie : Bool
  /-- `Mem` (R35). -/
  mem : Memory
  /-- The dispatcher's state (R37). -/
  disp : Dispatcher
  /-- The output trace, in the order emitted (R12, R16). -/
  trace : List Event
  /-- The host's sum of the values `step()` returned (R16, R278 `total`, R289). -/
  total : Nat
  /-- The parameters of the machine (R7). -/
  cfg : Config
  /-- MODEL'S OWN (log 5): the environment's inputs. -/
  inputs : Inputs
  /-- MODEL'S OWN (log 4): the host's next transitions, the first to be taken first; when there is none, `run` is. -/
  schedule : List Transition
deriving DecidableEq, Repr

/-- Why the machine stops with a fault: never. "Nothing in this machine is `fault` or `stuck`"
(`93_implementation_defined.md` section 2; R280). -/
inductive Fault
deriving DecidableEq, Repr

/-- Why a transition is refused. -/
inductive Refusal
  /-- Raised by an arm of `exec` for an instruction that has no meaning yet. Safe: nothing is claimed of it. -/
  | notModelled (mnemonic : String)
  /-- Raised by the host's `load` when `addr + len > 65536`: "a fatal precondition violation", no next state (R15, R62).
  Safe: the spec gives it none. -/
  | hostLoadOutOfBounds
deriving DecidableEq, Repr

/-- What a transition answers. -/
abbrev Result := Host.Outcome State Fault Refusal

/-- All flags clear (R40). -/
def Flags.clear : Flags := ⟨false, false, false, false, false⟩

/-- The machine at construction (R302, R45): the core as `reset()` leaves it (R40, R43), memory all zero (R42), the
dispatcher as R44, an empty trace. The parameters are at their defaults (R7), no file is on the backend, no input is ready
and the host has nothing scheduled: DESIGN CHOICE (log 3, 4, 5, 6). -/
def State.reset : State where
  a := 0#8
  b := 0#8
  c := 0#8
  d := 0#8
  e := 0#8
  h := 0#8
  l := 0#8
  sp := 0#16
  pc := 0#16
  flags := Flags.clear
  halted := false
  ie := false
  mem := []
  disp := { curDrive := 0, dma := defaultConfig.defaultDma, user := 0#5, files := [] }
  trace := []
  total := 0
  cfg := defaultConfig
  inputs := { portIn := [], portDraws := 0, conIn := [], conDraws := 0, lineIn := [], lineDraws := 0 }
  schedule := []

end Sys2Proof.Machine
end

