-- ==== Sys2Proof/Machine/Flags.lean ====
section
/-! DEFINITION. The flag-arithmetic unit: every rule that computes a flag (`40_arithmetic.md` R100 to R135,
`41_logical_rotate.md` R140 to R156), the packed flag byte (`10_state.md` R27, R28) and the conditions (`42_branch.md`
R160). A function that computes a result byte and flags answers the pair of them. -/

namespace Sys2Proof.Machine

/-! ## Result flags -/

/-- `parity(v)`: is the number of 1 bits of the byte even (R100)? -/
def parity (v : Byte) : Bool := (List.range 8).countP (fun i => v.getLsbD i) % 2 == 0

/-- `zsp(v)`: Z, S and P from the result byte, AC and CY as they were (R101). -/
def zsp (v : Byte) (f : Flags) : Flags :=
  { f with zero := v == 0#8, sign := v.getLsbD 7, parity := parity v }

/-! ## Add, subtract, increment, decrement -/

/-- The carry out of bit 3 of an addition (R102). -/
def addAuxCarry (x y : Byte) (cin : Bool) : Bool := decide (x.toNat % 16 + y.toNat % 16 + cin.toNat > 15)

/-- AC of a subtraction: the borrow out of bit 3 (R103). The polarity, decision D5, stands here and nowhere else. -/
def subAuxCarry (x y : Byte) (bin : Bool) : Bool :=
  decide (((x.toNat % 16 : Nat) : Int) - ((y.toNat % 16 : Nat) : Int) - (bin.toNat : Int) < 0)

/-- `add8(a, b, cin)`, the 8-bit add path (R102). -/
def add8 (x y : Byte) (cin : Bool) (f : Flags) : Byte × Flags :=
  let t := x.toNat + y.toNat + cin.toNat
  let r := BitVec.ofNat 8 t
  (r, { zsp r f with carry := decide (t > 255), auxCarry := addAuxCarry x y cin })

/-- `sub8(a, b, bin)`, the 8-bit subtract path (R103). -/
def sub8 (x y : Byte) (bin : Bool) (f : Flags) : Byte × Flags :=
  let t : Int := (x.toNat : Int) - (y.toNat : Int) - (bin.toNat : Int)
  let r := BitVec.ofInt 8 t
  (r, { zsp r f with carry := decide (t < 0), auxCarry := subAuxCarry x y bin })

/-- INR's path: AC is the carry out of bit 3, CY stays (R125, R126). -/
def inc8 (v : Byte) (f : Flags) : Byte × Flags :=
  let r := v + 1#8
  (r, { zsp r f with auxCarry := r.extractLsb' 0 4 == 0#4 })

/-- DCR's path: AC is set whatever the operand, CY stays (R127, R128). -/
def dec8 (v : Byte) (f : Flags) : Byte × Flags :=
  let r := v - 1#8
  (r, { zsp r f with auxCarry := true })

/-- DAD's path: CY alone is written (R133). -/
def add16 (x y : Word) (f : Flags) : Word × Flags :=
  let t := x.toNat + y.toNat
  (BitVec.ofNat 16 t, { f with carry := decide (t > 0xFFFF) })

/-! ## Decimal adjust -/

/-- `lo > 9`, the low nibble of A before the instruction (R135). -/
def daaLowExceeds (x : Byte) : Bool := decide (x.toNat % 16 > 9)

/-- `ch`, the high test on the values before the instruction (R135, D8). -/
def daaHighTest (x : Byte) (f : Flags) : Bool := decide (x.toNat > 0x99) || f.carry

/-- `corr`, the correction (R135). -/
def daaCorrection (x : Byte) (f : Flags) : Nat :=
  (if daaLowExceeds x || f.auxCarry then 0x06 else 0) + (if daaHighTest x f then 0x60 else 0)

/-- DAA (R135, D8, D9). -/
def daa8 (x : Byte) (f : Flags) : Byte × Flags :=
  let r := BitVec.ofNat 8 (x.toNat + daaCorrection x f)
  (r, { zsp r f with auxCarry := daaLowExceeds x, carry := daaHighTest x f })

/-! ## Logical operations and rotates -/

/-- `andflags(r)`: CY clear, AC set (R140). -/
def andFlags (r : Byte) (f : Flags) : Flags := { zsp r f with carry := false, auxCarry := true }

/-- `orxorflags(r)`: CY and AC clear (R142, D6). -/
def orXorFlags (r : Byte) (f : Flags) : Flags := { zsp r f with carry := false, auxCarry := false }

/-- RLC (R150). -/
def rlc8 (x : Byte) (f : Flags) : Byte × Flags :=
  let out := x.getLsbD 7
  (BitVec.ofNat 8 (x.toNat * 2 + out.toNat), { f with carry := out })

/-- RRC (R151). -/
def rrc8 (x : Byte) (f : Flags) : Byte × Flags :=
  let out := x.getLsbD 0
  (BitVec.ofNat 8 (x.toNat / 2 + 128 * out.toNat), { f with carry := out })

/-- RAL, through the old CY (R152). -/
def ral8 (x : Byte) (f : Flags) : Byte × Flags :=
  (BitVec.ofNat 8 (x.toNat * 2 + f.carry.toNat), { f with carry := x.getLsbD 7 })

/-- RAR, through the old CY (R153). -/
def rar8 (x : Byte) (f : Flags) : Byte × Flags :=
  (BitVec.ofNat 8 (x.toNat / 2 + 128 * f.carry.toNat), { f with carry := x.getLsbD 0 })

/-! ## The packed flag byte -/

/-- `FlagByte()`: `S Z 0 AC 0 P 1 CY` from bit 7 to bit 0 (R27, D4). -/
def flagByte (f : Flags) : Byte :=
  BitVec.ofNat 8 (f.sign.toNat * 128 + f.zero.toNat * 64 + f.auxCarry.toNat * 16 + f.parity.toNat * 4 + 2 + f.carry.toNat)

/-- `SetFlagsFromByte(b)`: bits 5, 3 and 1 are dropped (R28). -/
def flagsOfByte (v : Byte) : Flags where
  sign := v.getLsbD 7
  zero := v.getLsbD 6
  auxCarry := v.getLsbD 4
  parity := v.getLsbD 2
  carry := v.getLsbD 0

/-- The flags POP PSW leaves: AC is forced to 1, whatever the popped byte (R203). -/
def poppedFlags (v : Byte) : Flags := { flagsOfByte v with auxCarry := true }

/-! ## Conditions -/

/-- `cond(ccc)` (R160). -/
def condHolds : Cond → Flags → Bool
  | .nz, f => !f.zero
  | .z, f => f.zero
  | .nc, f => !f.carry
  | .c, f => f.carry
  | .po, f => !f.parity
  | .pe, f => f.parity
  | .p, f => !f.sign
  | .m, f => f.sign

end Sys2Proof.Machine
end

