-- ==== Sys2Proof/Machine/Operands.lean ====
section
/-! DEFINITION. The operand forms (`44_data_transfer.md` R219): registers, register pairs, PSW, memory bytes and words,
the operand M, and the values drawn from the environment. -/

namespace Sys2Proof.Machine

/-! ## Registers and pairs -/

/-- The value of a general register (R9, R73). -/
def State.reg (s : State) : Reg → Byte
  | .b => s.b
  | .c => s.c
  | .d => s.d
  | .e => s.e
  | .h => s.h
  | .l => s.l
  | .a => s.a

/-- Write a general register (R9, R73). -/
def State.setReg (s : State) (r : Reg) (v : Byte) : State :=
  match r with
  | .b => { s with b := v }
  | .c => { s with c := v }
  | .d => { s with d := v }
  | .e => { s with e := v }
  | .h => { s with h := v }
  | .l => { s with l := v }
  | .a => { s with a := v }

/-- The pair view BC, a view and no storage (R21). -/
def State.bc (s : State) : Word := joinBytes s.b s.c

/-- The pair view DE (R21). -/
def State.de (s : State) : Word := joinBytes s.d s.e

/-- The pair view HL (R21). -/
def State.hl (s : State) : Word := joinBytes s.h s.l

/-- Write BC: both halves (R21). -/
def State.setBC (s : State) (v : Word) : State := { s with b := hiByte v, c := loByte v }

/-- Write DE: both halves (R21). -/
def State.setDE (s : State) (v : Word) : State := { s with d := hiByte v, e := loByte v }

/-- Write HL: both halves (R21). -/
def State.setHL (s : State) (v : Word) : State := { s with h := hiByte v, l := loByte v }

/-- `rp[pp]` in LXI, INX, DCX, DAD (R74). -/
def State.pair (s : State) : Pair → Word
  | .bc => s.bc
  | .de => s.de
  | .hl => s.hl
  | .sp => s.sp

/-- Write `rp[pp]` in LXI, INX, DCX, DAD (R74). -/
def State.setPair (s : State) (p : Pair) (v : Word) : State :=
  match p with
  | .bc => s.setBC v
  | .de => s.setDE v
  | .hl => s.setHL v
  | .sp => { s with sp := v }

/-- `rp[pp]` in PUSH and POP, but PSW (R74). -/
def State.stackPair (s : State) : StackPair → Word
  | .bc => s.bc
  | .de => s.de
  | .hl => s.hl

/-- Write `rp[pp]` in PUSH and POP, but PSW (R74). -/
def State.setStackPair (s : State) (p : StackPair) (v : Word) : State :=
  match p with
  | .bc => s.setBC v
  | .de => s.setDE v
  | .hl => s.setHL v

/-- The address in the pair of LDAX and STAX (R230, R231). -/
def State.indexPair (s : State) : IndexPair → Word
  | .bc => s.bc
  | .de => s.de

/-- PSW, the view `A:FlagByte()` (R22, R201). -/
def State.psw (s : State) : Word := joinBytes s.a (flagByte s.flags)

/-- Write PSW as POP PSW does (R203). -/
def State.setPsw (s : State) (v : Word) : State := { s with a := hiByte v, flags := poppedFlags (loByte v) }

/-! ## Memory as a list -/

/-- The byte at an address: 0x00 where the list has none (R42, R50). -/
def Memory.read : Memory → Nat → Byte
  | [], _ => 0#8
  | (k, v) :: m, addr => if k = addr then v else Memory.read m addr

/-- Put a byte in front of a memory whose addresses all lie above it; 0x00 is not listed. -/
def Memory.put (addr : Nat) (v : Byte) (m : Memory) : Memory := if v = 0#8 then m else (addr, v) :: m

/-- Write the byte at an address, "overwrites in place" (R50). -/
def Memory.write : Memory → Nat → Byte → Memory
  | [], addr, v => Memory.put addr v []
  | (k, w) :: m, addr, v =>
    if addr < k then Memory.put addr v ((k, w) :: m)
    else if addr = k then Memory.put addr v m
    else (k, w) :: Memory.write m addr v

/-- The canonical form: addresses strictly rising and below 65536, no byte listed that is 0x00. -/
def Memory.wf (m : Memory) : Bool :=
  decide (m.Pairwise (fun x y => x.1 < y.1)) && m.all (fun x => decide (x.1 < 65536) && x.2 != 0#8)

/-! ## Memory accesses of the machine -/

/-- `MemRead(addr, 1)` (R10, R50); an address is 16 bits, so it is taken modulo 65536 (R51). -/
def State.readByte (s : State) (addr : Word) : Byte := Memory.read s.mem addr.toNat

/-- `MemWrite(addr, 1, v)` (R10, R50). -/
def State.writeByte (s : State) (addr : Word) (v : Byte) : State :=
  { s with mem := Memory.write s.mem addr.toNat v }

/-- `MemRead(addr, 2)`: the low byte at the lower address (R10, R52). -/
def State.readWord (s : State) (addr : Word) : Word := joinBytes (s.readByte (addr + 1#16)) (s.readByte addr)

/-- `MemWrite(addr, 2, v)`: the low byte first, at the lower address (R10, R52, R54). -/
def State.writeWord (s : State) (addr : Word) (v : Word) : State :=
  (s.writeByte addr (loByte v)).writeByte (addr + 1#16) (hiByte v)

/-- The operand M: the memory byte at HL (R73). -/
def State.readM (s : State) : Byte := s.readByte s.hl

/-- Write the operand M (R73). -/
def State.writeM (s : State) (v : Byte) : State := s.writeByte s.hl v

/-! ## Draws -/

/-- The next value of a free input: the oldest one the environment has ready, else the free value of this occurrence. -/
def nextInput {α : Type} (ready : List α) (free : α) : α := ready.headD free

/-- `draw PortIn(p)` (R12, R208): the value. -/
def State.portValue (s : State) (p : Byte) : Byte :=
  nextInput s.inputs.portIn (Config.freePortIn p s.inputs.portDraws)

/-- `draw PortIn(p)`: the input is used up. -/
def State.portDrawn (s : State) : State :=
  { s with inputs := { s.inputs with portIn := s.inputs.portIn.tail, portDraws := s.inputs.portDraws + 1 } }

/-- `draw ConIn()` (R12, R243): the value. -/
def State.conValue (s : State) : Byte := nextInput s.inputs.conIn (Config.freeConIn s.inputs.conDraws)

/-- `draw ConIn()`: the input is used up. -/
def State.conDrawn (s : State) : State :=
  { s with inputs := { s.inputs with conIn := s.inputs.conIn.tail, conDraws := s.inputs.conDraws + 1 } }

/-- `draw LineIn()` (R12, R243): the value. -/
def State.lineValue (s : State) : List Byte := nextInput s.inputs.lineIn (Config.freeLineIn s.inputs.lineDraws)

/-- `draw LineIn()`: the input is used up. -/
def State.lineDrawn (s : State) : State :=
  { s with inputs := { s.inputs with lineIn := s.inputs.lineIn.tail, lineDraws := s.inputs.lineDraws + 1 } }

end Sys2Proof.Machine
end

