-- ==== Sys2Proof/Machine/Ops.lean ====
section
/-! DEFINITION. The named operations over memory and registers that the meanings share: the stack (`00_scope.md` R11), the
output trace (R12), the accumulator operations, control transfer, and entering and leaving a trap (`60_exceptions.md` R286,
R287). -/

namespace Sys2Proof.Machine

/-! ## The output trace -/

/-- `emit Ev(args)` (R12). -/
def State.emit (s : State) (ev : Event) : State := { s with trace := s.trace ++ [ev] }

/-! ## The stack -/

/-- `Push16(v)`: the high byte at SP-1, then the low byte at SP-2, SP ends 2 lower (R11, D2). -/
def State.push16 (s : State) (v : Word) : State :=
  { (s.writeByte (s.sp - 1#16) (hiByte v)).writeByte (s.sp - 2#16) (loByte v) with sp := s.sp - 2#16 }

/-- `Pop16()`: the word on top of the stack, its low byte at SP (R11). -/
def State.top16 (s : State) : Word := joinBytes (s.readByte (s.sp + 1#16)) (s.readByte s.sp)

/-- `Pop16()`: SP ends 2 higher (R11). -/
def State.drop16 (s : State) : State := { s with sp := s.sp + 2#16 }

/-! ## Accumulator operations -/

/-- Write A and the flags. -/
def State.setAF (s : State) (r : Byte × Flags) : State := { s with a := r.1, flags := r.2 }

/-- `A <- add8(A, v, cin)` (R102). -/
def State.addA (s : State) (v : Byte) (cin : Bool) : State := s.setAF (add8 s.a v cin s.flags)

/-- `A <- sub8(A, v, bin)` (R103). -/
def State.subA (s : State) (v : Byte) (bin : Bool) : State := s.setAF (sub8 s.a v bin s.flags)

/-- `sub8(A, v, 0)` with the result discarded (R117). -/
def State.cmpA (s : State) (v : Byte) : State := { s with flags := (sub8 s.a v false s.flags).2 }

/-- AND into A (R143). -/
def State.andA (s : State) (v : Byte) : State := s.setAF (s.a &&& v, andFlags (s.a &&& v) s.flags)

/-- XOR into A (R146). -/
def State.xorA (s : State) (v : Byte) : State := s.setAF (s.a ^^^ v, orXorFlags (s.a ^^^ v) s.flags)

/-- OR into A (R149). -/
def State.orA (s : State) (v : Byte) : State := s.setAF (s.a ||| v, orXorFlags (s.a ||| v) s.flags)

/-! ## Control transfer -/

/-- `PC <- a` (R161, R194). -/
def State.jumpTo (s : State) (addr : Word) : State := { s with pc := addr }

/-- `if cond(ccc) : PC <- a` (R162). -/
def State.jumpIf (s : State) (cond : Cond) (addr : Word) : State :=
  if condHolds cond s.flags then s.jumpTo addr else s

/-- `Push16(PC) ; PC <- a` (R171, R193). -/
def State.callTo (s : State) (addr : Word) : State := (s.push16 s.pc).jumpTo addr

/-- `if cond(ccc) : Push16(PC) ; PC <- a` (R172). -/
def State.callIf (s : State) (cond : Cond) (addr : Word) : State :=
  if condHolds cond s.flags then s.callTo addr else s

/-- `PC <- Pop16()` (R181). It is also the return from a trap: the saved PC is popped and nothing else is restored, IE
neither (R287). -/
def State.doReturn (s : State) : State := s.drop16.jumpTo s.top16

/-- `if cond(ccc) : PC <- Pop16()` (R182). -/
def State.returnIf (s : State) (cond : Cond) : State :=
  if condHolds cond s.flags then s.doReturn else s

/-! ## Entering a trap -/

/-- The address RST n goes to, `8 * n` (R193, R286). -/
def restartVector (n : BitVec 3) : Word := BitVec.ofNat 16 (8 * n.toNat)

/-- The trap entry of the machine, RST n (R193, R286): PC is pushed, no other state is saved, no cause is recorded, the
handler's address is computed from `n`. -/
def State.enterRestart (s : State) (n : BitVec 3) : State := s.callTo (restartVector n)

/-- What accepting an interrupt does by itself: "its only own effect is `IE <- 0`" (R282, R286). -/
def State.acceptInterrupt (s : State) : State := { s with ie := false }

/-! ## Reset -/

/-- `reset()`: registers, flags, PC, SP, Halted, IE; nothing else (R300, R40, R41). -/
def State.coreReset (s : State) : State :=
  { s with
    a := 0#8, b := 0#8, c := 0#8, d := 0#8, e := 0#8, h := 0#8, l := 0#8
    flags := Flags.clear, pc := 0#16, sp := 0#16, halted := false, ie := false }

end Sys2Proof.Machine
end

