-- ==== Sys2Proof/Machine/Arithmetic.lean ====
section
/-! DEFINITION. The arithmetic instructions (`40_arithmetic.md` sections 2 to 5). -/

namespace Sys2Proof.Machine

/-- ADD r (R105): `A <- add8(A, v, 0)`, `v` the register. -/
def execAddR (r : Reg) (s : State) : Result := .next (s.addA (s.reg r) false)

/-- ADD M (R106): `A <- add8(A, v, 0)`, `v` the byte at HL. -/
def execAddM (s : State) : Result := .next (s.addA s.readM false)

/-- ADI d8 (R107): `A <- add8(A, v, 0)`, `v` the immediate. -/
def execAdi (d8 : Byte) (s : State) : Result := .next (s.addA d8 false)

/-- ADC r (R108): `A <- add8(A, v, CY)`, `v` the register. -/
def execAdcR (r : Reg) (s : State) : Result := .next (s.addA (s.reg r) s.flags.carry)

/-- ADC M (R109): `A <- add8(A, v, CY)`, `v` the byte at HL. -/
def execAdcM (s : State) : Result := .next (s.addA s.readM s.flags.carry)

/-- ACI d8 (R110): `A <- add8(A, v, CY)`, `v` the immediate. -/
def execAci (d8 : Byte) (s : State) : Result := .next (s.addA d8 s.flags.carry)

/-- SUB r (R111): `A <- sub8(A, v, 0)`, `v` the register. -/
def execSubR (r : Reg) (s : State) : Result := .next (s.subA (s.reg r) false)

/-- SUB M (R112): `A <- sub8(A, v, 0)`, `v` the byte at HL. -/
def execSubM (s : State) : Result := .next (s.subA s.readM false)

/-- SUI d8 (R113): `A <- sub8(A, v, 0)`, `v` the immediate. -/
def execSui (d8 : Byte) (s : State) : Result := .next (s.subA d8 false)

/-- SBB r (R114): `A <- sub8(A, v, CY)`, `v` the register. -/
def execSbbR (r : Reg) (s : State) : Result := .next (s.subA (s.reg r) s.flags.carry)

/-- SBB M (R115): `A <- sub8(A, v, CY)`, `v` the byte at HL. -/
def execSbbM (s : State) : Result := .next (s.subA s.readM s.flags.carry)

/-- SBI d8 (R116): `A <- sub8(A, v, CY)`, `v` the immediate. -/
def execSbi (d8 : Byte) (s : State) : Result := .next (s.subA d8 s.flags.carry)

/-- CMP r (R117): the flags of `sub8(A, v, 0)`, A not written. -/
def execCmpR (r : Reg) (s : State) : Result := .next (s.cmpA (s.reg r))

/-- CMP M (R118). -/
def execCmpM (s : State) : Result := .next (s.cmpA s.readM)

/-- CPI d8 (R119). -/
def execCpi (d8 : Byte) (s : State) : Result := .next (s.cmpA d8)

/-- INR r (R125): CY is kept. -/
def execInrR (r : Reg) (s : State) : Result :=
  .next { s.setReg r (inc8 (s.reg r) s.flags).1 with flags := (inc8 (s.reg r) s.flags).2 }

/-- INR M (R126): the byte at HL is read and then written. -/
def execInrM (s : State) : Result :=
  .next { s.writeM (inc8 s.readM s.flags).1 with flags := (inc8 s.readM s.flags).2 }

/-- DCR r (R127): AC is set whatever the operand, CY is kept. -/
def execDcrR (r : Reg) (s : State) : Result :=
  .next { s.setReg r (dec8 (s.reg r) s.flags).1 with flags := (dec8 (s.reg r) s.flags).2 }

/-- DCR M (R128). -/
def execDcrM (s : State) : Result :=
  .next { s.writeM (dec8 s.readM s.flags).1 with flags := (dec8 s.readM s.flags).2 }

/-- INX rp (R130): modulo 65536, no flag. -/
def execInx (rp : Pair) (s : State) : Result := .next (s.setPair rp (s.pair rp + 1#16))

/-- DCX rp (R131): modulo 65536, no flag. -/
def execDcx (rp : Pair) (s : State) : Result := .next (s.setPair rp (s.pair rp - 1#16))

/-- DAD rp (R133): HL plus the pair, both read before HL is written; CY alone of the flags. -/
def execDad (rp : Pair) (s : State) : Result :=
  .next { s.setHL (add16 s.hl (s.pair rp) s.flags).1 with flags := (add16 s.hl (s.pair rp) s.flags).2 }

/-- DAA (R135). -/
def execDaa (s : State) : Result := .next (s.setAF (daa8 s.a s.flags))

end Sys2Proof.Machine
end

