-- ==== Sys2Proof/Machine/Branch.lean ====
section
/-! DEFINITION. The control-transfer instructions (`42_branch.md`). PC is past the instruction when a meaning runs (`10_state.md` R24). -/

namespace Sys2Proof.Machine

/-- JMP a16 (R161). -/
def execJmp (a16 : Word) (s : State) : Result := .next (s.jumpTo a16)

/-- JNZ a16 (R163, by R162). -/
def execJnz (a16 : Word) (s : State) : Result := .next (s.jumpIf .nz a16)

/-- JZ a16 (R164, by R162). -/
def execJz (a16 : Word) (s : State) : Result := .next (s.jumpIf .z a16)

/-- JNC a16 (R165, by R162). -/
def execJnc (a16 : Word) (s : State) : Result := .next (s.jumpIf .nc a16)

/-- JC a16 (R166, by R162). -/
def execJc (a16 : Word) (s : State) : Result := .next (s.jumpIf .c a16)

/-- JPO a16 (R167, by R162). -/
def execJpo (a16 : Word) (s : State) : Result := .next (s.jumpIf .po a16)

/-- JPE a16 (R168, by R162). -/
def execJpe (a16 : Word) (s : State) : Result := .next (s.jumpIf .pe a16)

/-- JP a16 (R169, by R162). -/
def execJp (a16 : Word) (s : State) : Result := .next (s.jumpIf .p a16)

/-- JM a16 (R170, by R162). -/
def execJm (a16 : Word) (s : State) : Result := .next (s.jumpIf .m a16)

/-- CALL a16 (R171). -/
def execCall (a16 : Word) (s : State) : Result := .next (s.callTo a16)

/-- CNZ a16 (R173, by R172). -/
def execCnz (a16 : Word) (s : State) : Result := .next (s.callIf .nz a16)

/-- CZ a16 (R174, by R172). -/
def execCz (a16 : Word) (s : State) : Result := .next (s.callIf .z a16)

/-- CNC a16 (R175, by R172). -/
def execCnc (a16 : Word) (s : State) : Result := .next (s.callIf .nc a16)

/-- CC a16 (R176, by R172). -/
def execCc (a16 : Word) (s : State) : Result := .next (s.callIf .c a16)

/-- CPO a16 (R177, by R172). -/
def execCpo (a16 : Word) (s : State) : Result := .next (s.callIf .po a16)

/-- CPE a16 (R178, by R172). -/
def execCpe (a16 : Word) (s : State) : Result := .next (s.callIf .pe a16)

/-- CP a16 (R179, by R172). -/
def execCp (a16 : Word) (s : State) : Result := .next (s.callIf .p a16)

/-- CM a16 (R180, by R172). -/
def execCm (a16 : Word) (s : State) : Result := .next (s.callIf .m a16)

/-- RET (R181). -/
def execRet (s : State) : Result := .next s.doReturn

/-- RNZ (R183, by R182). -/
def execRnz (s : State) : Result := .next (s.returnIf .nz)

/-- RZ (R184, by R182). -/
def execRz (s : State) : Result := .next (s.returnIf .z)

/-- RNC (R185, by R182). -/
def execRnc (s : State) : Result := .next (s.returnIf .nc)

/-- RC (R186, by R182). -/
def execRc (s : State) : Result := .next (s.returnIf .c)

/-- RPO (R187, by R182). -/
def execRpo (s : State) : Result := .next (s.returnIf .po)

/-- RPE (R188, by R182). -/
def execRpe (s : State) : Result := .next (s.returnIf .pe)

/-- RP (R189, by R182). -/
def execRp (s : State) : Result := .next (s.returnIf .p)

/-- RM (R190, by R182). -/
def execRm (s : State) : Result := .next (s.returnIf .m)

/-- RST n (R193). -/
def execRst (n : BitVec 3) (s : State) : Result := .next (s.enterRestart n)

/-- PCHL (R194). -/
def execPchl (s : State) : Result := .next (s.jumpTo s.hl)

end Sys2Proof.Machine
end

