-- ==== Sys2Proof/Machine/Logic.lean ====
section
/-! DEFINITION. The logical, rotate and accumulator-special instructions (`41_logical_rotate.md`). -/

namespace Sys2Proof.Machine

/-- ANA r (R143). -/
def execAnaR (r : Reg) (s : State) : Result := .next (s.andA (s.reg r))

/-- ANA M (R144). -/
def execAnaM (s : State) : Result := .next (s.andA s.readM)

/-- ANI d8 (R145). -/
def execAni (d8 : Byte) (s : State) : Result := .next (s.andA d8)

/-- XRA r (R146). -/
def execXraR (r : Reg) (s : State) : Result := .next (s.xorA (s.reg r))

/-- XRA M (R147). -/
def execXraM (s : State) : Result := .next (s.xorA s.readM)

/-- XRI d8 (R148). -/
def execXri (d8 : Byte) (s : State) : Result := .next (s.xorA d8)

/-- ORA r (R149). -/
def execOraR (r : Reg) (s : State) : Result := .next (s.orA (s.reg r))

/-- ORA M (R157). -/
def execOraM (s : State) : Result := .next (s.orA s.readM)

/-- ORI d8 (R158). -/
def execOri (d8 : Byte) (s : State) : Result := .next (s.orA d8)

/-- RLC (R150): A and CY only. -/
def execRlc (s : State) : Result := .next (s.setAF (rlc8 s.a s.flags))

/-- RRC (R151): A and CY only. -/
def execRrc (s : State) : Result := .next (s.setAF (rrc8 s.a s.flags))

/-- RAL (R152): A and CY only. -/
def execRal (s : State) : Result := .next (s.setAF (ral8 s.a s.flags))

/-- RAR (R153): A and CY only. -/
def execRar (s : State) : Result := .next (s.setAF (rar8 s.a s.flags))

/-- CMA (R154): no flag. -/
def execCma (s : State) : Result := .next { s with a := s.a ^^^ 0xFF#8 }

/-- STC (R155): CY only. -/
def execStc (s : State) : Result := .next { s with flags := { s.flags with carry := true } }

/-- CMC (R156): CY only. -/
def execCmc (s : State) : Result := .next { s with flags := { s.flags with carry := !s.flags.carry } }

end Sys2Proof.Machine
end

