-- ==== Sys2Proof/Machine/StackIo.lean ====
section
/-! DEFINITION. The stack, input/output and machine-control instructions (`43_stack_io_control.md`). -/

namespace Sys2Proof.Machine

/-- PUSH rp (R200). -/
def execPush (rp : StackPair) (s : State) : Result := .next (s.push16 (s.stackPair rp))

/-- PUSH PSW (R201). -/
def execPushPsw (s : State) : Result := .next (s.push16 s.psw)

/-- POP rp (R202). -/
def execPop (rp : StackPair) (s : State) : Result := .next (s.drop16.setStackPair rp s.top16)

/-- POP PSW (R203). -/
def execPopPsw (s : State) : Result := .next (s.drop16.setPsw s.top16)

/-- XTHL (R204): both bytes are read before they are written. -/
def execXthl (s : State) : Result := .next ((s.writeWord s.sp s.hl).setHL (s.readWord s.sp))

/-- SPHL (R205). -/
def execSphl (s : State) : Result := .next { s with sp := s.hl }

/-- IN p8 (R208). -/
def execIn (p8 : Byte) (s : State) : Result := .next { s.portDrawn with a := s.portValue p8 }

/-- OUT p8 (R209). -/
def execOut (p8 : Byte) (s : State) : Result := .next (s.emit (.outPort p8 s.a))

/-- EI (R210): at once (D13). -/
def execEi (s : State) : Result := .next { s with ie := true }

/-- DI (R211): at once. -/
def execDi (s : State) : Result := .next { s with ie := false }

/-- HLT (R212). -/
def execHlt (s : State) : Result := .next (({ s with halted := true } : State).emit .haltEvent)

/-- NOP (R213): nothing but the advance of PC at the fetch. -/
def execNop (s : State) : Result := .next s

/-- The twelve undefined opcodes (R214, R78): one-byte no-ops. -/
def execUndef (_op : Byte) (s : State) : Result := .next s

end Sys2Proof.Machine
end

