-- ==== Sys2Proof/Machine/Transfer.lean ====
section
/-! DEFINITION. The data-transfer instructions (`44_data_transfer.md`). -/

namespace Sys2Proof.Machine

/-- MOV r1,r2 (R220). -/
def execMovRR (dst src : Reg) (s : State) : Result := .next (s.setReg dst (s.reg src))

/-- MOV r,M (R221): the byte at the old HL. -/
def execMovRM (dst : Reg) (s : State) : Result := .next (s.setReg dst s.readM)

/-- MOV M,r (R222). -/
def execMovMR (src : Reg) (s : State) : Result := .next (s.writeM (s.reg src))

/-- MVI r,d8 (R223). -/
def execMviR (dst : Reg) (d8 : Byte) (s : State) : Result := .next (s.setReg dst d8)

/-- MVI M,d8 (R224). -/
def execMviM (d8 : Byte) (s : State) : Result := .next (s.writeM d8)

/-- LXI rp,d16 (R225). -/
def execLxi (rp : Pair) (d16 : Word) (s : State) : Result := .next (s.setPair rp d16)

/-- LDA a16 (R226). -/
def execLda (a16 : Word) (s : State) : Result := .next { s with a := s.readByte a16 }

/-- STA a16 (R227). -/
def execSta (a16 : Word) (s : State) : Result := .next (s.writeByte a16 s.a)

/-- LHLD a16 (R228). -/
def execLhld (a16 : Word) (s : State) : Result := .next (s.setHL (s.readWord a16))

/-- SHLD a16 (R229). -/
def execShld (a16 : Word) (s : State) : Result := .next (s.writeWord a16 s.hl)

/-- LDAX rp (R230). -/
def execLdax (rp : IndexPair) (s : State) : Result := .next { s with a := s.readByte (s.indexPair rp) }

/-- STAX rp (R231). -/
def execStax (rp : IndexPair) (s : State) : Result := .next (s.writeByte (s.indexPair rp) s.a)

/-- XCHG (R232). -/
def execXchg (s : State) : Result := .next ((s.setHL s.de).setDE s.hl)

end Sys2Proof.Machine
end

