-- ==== Sys2Proof/Machine/Dispatch.lean ====
section
/-! DEFINITION. `Execute(op)`'s choice of the action (`30_encoding.md` R82): one arm per constructor of `Instr`, each a call
of the instruction's meaning. A meaning runs with PC past the instruction's last byte (`10_state.md` R24). -/

namespace Sys2Proof.Machine

def exec (i : Instr) (s : State) : Host.Outcome State Fault Refusal :=
  match i with
  -- 44_data_transfer.md
  | .movRR dst src => Sys2Proof.Machine.execMovRR dst src s
  | .movRM dst => Sys2Proof.Machine.execMovRM dst s
  | .movMR src => Sys2Proof.Machine.execMovMR src s
  | .mviR dst d8 => Sys2Proof.Machine.execMviR dst d8 s
  | .mviM d8 => Sys2Proof.Machine.execMviM d8 s
  | .lxi rp d16 => Sys2Proof.Machine.execLxi rp d16 s
  | .lda a16 => Sys2Proof.Machine.execLda a16 s
  | .sta a16 => Sys2Proof.Machine.execSta a16 s
  | .lhld a16 => Sys2Proof.Machine.execLhld a16 s
  | .shld a16 => Sys2Proof.Machine.execShld a16 s
  | .ldax rp => Sys2Proof.Machine.execLdax rp s
  | .stax rp => Sys2Proof.Machine.execStax rp s
  | .xchg => Sys2Proof.Machine.execXchg s
  -- 40_arithmetic.md
  | .addR src => Sys2Proof.Machine.execAddR src s
  | .addM => Sys2Proof.Machine.execAddM s
  | .adi d8 => Sys2Proof.Machine.execAdi d8 s
  | .adcR src => Sys2Proof.Machine.execAdcR src s
  | .adcM => Sys2Proof.Machine.execAdcM s
  | .aci d8 => Sys2Proof.Machine.execAci d8 s
  | .subR src => Sys2Proof.Machine.execSubR src s
  | .subM => Sys2Proof.Machine.execSubM s
  | .sui d8 => Sys2Proof.Machine.execSui d8 s
  | .sbbR src => Sys2Proof.Machine.execSbbR src s
  | .sbbM => Sys2Proof.Machine.execSbbM s
  | .sbi d8 => Sys2Proof.Machine.execSbi d8 s
  | .cmpR src => Sys2Proof.Machine.execCmpR src s
  | .cmpM => Sys2Proof.Machine.execCmpM s
  | .cpi d8 => Sys2Proof.Machine.execCpi d8 s
  | .inrR dst => Sys2Proof.Machine.execInrR dst s
  | .inrM => Sys2Proof.Machine.execInrM s
  | .dcrR dst => Sys2Proof.Machine.execDcrR dst s
  | .dcrM => Sys2Proof.Machine.execDcrM s
  | .inx rp => Sys2Proof.Machine.execInx rp s
  | .dcx rp => Sys2Proof.Machine.execDcx rp s
  | .dad rp => Sys2Proof.Machine.execDad rp s
  | .daa => Sys2Proof.Machine.execDaa s
  -- 41_logical_rotate.md
  | .anaR src => Sys2Proof.Machine.execAnaR src s
  | .anaM => Sys2Proof.Machine.execAnaM s
  | .ani d8 => Sys2Proof.Machine.execAni d8 s
  | .xraR src => Sys2Proof.Machine.execXraR src s
  | .xraM => Sys2Proof.Machine.execXraM s
  | .xri d8 => Sys2Proof.Machine.execXri d8 s
  | .oraR src => Sys2Proof.Machine.execOraR src s
  | .oraM => Sys2Proof.Machine.execOraM s
  | .ori d8 => Sys2Proof.Machine.execOri d8 s
  | .rlc => Sys2Proof.Machine.execRlc s
  | .rrc => Sys2Proof.Machine.execRrc s
  | .ral => Sys2Proof.Machine.execRal s
  | .rar => Sys2Proof.Machine.execRar s
  | .cma => Sys2Proof.Machine.execCma s
  | .stc => Sys2Proof.Machine.execStc s
  | .cmc => Sys2Proof.Machine.execCmc s
  -- 42_branch.md
  | .jmp a16 => Sys2Proof.Machine.execJmp a16 s
  | .jnz a16 => Sys2Proof.Machine.execJnz a16 s
  | .jz a16 => Sys2Proof.Machine.execJz a16 s
  | .jnc a16 => Sys2Proof.Machine.execJnc a16 s
  | .jc a16 => Sys2Proof.Machine.execJc a16 s
  | .jpo a16 => Sys2Proof.Machine.execJpo a16 s
  | .jpe a16 => Sys2Proof.Machine.execJpe a16 s
  | .jp a16 => Sys2Proof.Machine.execJp a16 s
  | .jm a16 => Sys2Proof.Machine.execJm a16 s
  | .call a16 => Sys2Proof.Machine.execCall a16 s
  | .cnz a16 => Sys2Proof.Machine.execCnz a16 s
  | .cz a16 => Sys2Proof.Machine.execCz a16 s
  | .cnc a16 => Sys2Proof.Machine.execCnc a16 s
  | .cc a16 => Sys2Proof.Machine.execCc a16 s
  | .cpo a16 => Sys2Proof.Machine.execCpo a16 s
  | .cpe a16 => Sys2Proof.Machine.execCpe a16 s
  | .cp a16 => Sys2Proof.Machine.execCp a16 s
  | .cm a16 => Sys2Proof.Machine.execCm a16 s
  | .ret => Sys2Proof.Machine.execRet s
  | .rnz => Sys2Proof.Machine.execRnz s
  | .rz => Sys2Proof.Machine.execRz s
  | .rnc => Sys2Proof.Machine.execRnc s
  | .rc => Sys2Proof.Machine.execRc s
  | .rpo => Sys2Proof.Machine.execRpo s
  | .rpe => Sys2Proof.Machine.execRpe s
  | .rp => Sys2Proof.Machine.execRp s
  | .rm => Sys2Proof.Machine.execRm s
  | .rst n => Sys2Proof.Machine.execRst n s
  | .pchl => Sys2Proof.Machine.execPchl s
  -- 43_stack_io_control.md
  | .push rp => Sys2Proof.Machine.execPush rp s
  | .pushPsw => Sys2Proof.Machine.execPushPsw s
  | .pop rp => Sys2Proof.Machine.execPop rp s
  | .popPsw => Sys2Proof.Machine.execPopPsw s
  | .xthl => Sys2Proof.Machine.execXthl s
  | .sphl => Sys2Proof.Machine.execSphl s
  | .inp p8 => Sys2Proof.Machine.execIn p8 s
  | .outp p8 => Sys2Proof.Machine.execOut p8 s
  | .ei => Sys2Proof.Machine.execEi s
  | .di => Sys2Proof.Machine.execDi s
  | .hlt => Sys2Proof.Machine.execHlt s
  | .nop => Sys2Proof.Machine.execNop s
  | .undef op => Sys2Proof.Machine.execUndef op s

end Sys2Proof.Machine
end

