-- ==== Sys2Proof/Machine/Syscall.lean ====
section
/-! DEFINITION. The system-call dispatcher (`45_syscall_dispatcher.md` R240 to R267) and the transition `Syscall` of the
host driver (R277). A dispatcher function answers its 16-bit result and the new state. -/

namespace Sys2Proof.Machine

/-! ## Result codes (R244) -/

/-- Success. -/
def rcSuccess : Word := 0x0000#16

/-- End of file, of sequential read. -/
def rcEndOfFile : Word := 0x0001#16

/-- Not found, or an unknown function. -/
def rcNotFound : Word := 0xFFFF#16

/-! ## Buffers in memory (R65, D38: every address wraps) -/

/-- Write bytes at `addr`, `addr + 1`, … -/
def State.writeBytes (s : State) (addr : Word) : List Byte → State
  | [] => s
  | v :: vs => (s.writeByte addr v).writeBytes (addr + 1#16) vs

/-- The `n` bytes at `addr`, `addr + 1`, … -/
def State.readBytes (s : State) (addr : Word) (n : Nat) : List Byte :=
  (List.range n).map (fun i => s.readByte (addr + BitVec.ofNat 16 i))

/-- `emit ConOut(b)` for each byte in order (R254). -/
def State.emitChars (s : State) (bytes : List Byte) : State :=
  { s with trace := s.trace ++ bytes.map Event.conOut }

/-! ## Names and patterns -/

/-- `up(b)`: an ASCII lower-case letter as upper case (R246). -/
def upByte (v : Byte) : Byte := if 0x61#8 ≤ v ∧ v ≤ 0x7A#8 then v - 0x20#8 else v

/-- `FcbKey(f)`: the 11 name bytes of the control block at `f`, upper-cased (R245, R246). -/
def State.fcbKey (s : State) (f : Word) : List Byte := (s.readBytes (f + 1#16) 11).map upByte

/-- `FieldMatch(p, k)`: `*` matches the rest of the field, `?` any one byte (R247, D31). -/
def fieldMatch : List Byte → List Byte → Bool
  | p :: ps, k :: ks => p == 0x2A#8 || ((p == 0x3F#8 || p == k) && fieldMatch ps ks)
  | _, _ => true

/-- `Match(pat, key)`: the 8 name bytes and the 3 extension bytes, each as a field (R247). -/
def keyMatch (pat key : List Byte) : Bool :=
  fieldMatch (pat.take 8) (key.take 8) && fieldMatch (pat.drop 8) (key.drop 8)

/-- Byte-wise lexicographic order of keys (R259). -/
def keyLt : List Byte → List Byte → Bool
  | _, [] => false
  | [], _ :: _ => true
  | x :: xs, y :: ys => decide (x < y) || (x == y && keyLt xs ys)

/-! ## The storage backend (R248) -/

/-- GetFile: the blob of a key on a drive, if the drive has the key. -/
def getFile (files : List FileEntry) (drive : Nat) (key : List Byte) : Option (List Byte) :=
  (files.find? (fun x => x.drive == drive && x.key == key)).map FileEntry.blob

/-- DeleteFile: the key is removed from the drive. -/
def deleteFile (files : List FileEntry) (drive : Nat) (key : List Byte) : List FileEntry :=
  files.filter (fun x => !(x.drive == drive && x.key == key))

/-- The keys on a drive that a pattern matches (R259). -/
def matchingKeys (files : List FileEntry) (drive : Nat) (pat : List Byte) : List (List Byte) :=
  (files.filter (fun x => x.drive == drive && keyMatch pat x.key)).map FileEntry.key

/-- The first of some keys in ascending order, if there is one (R259, D31). -/
def leastKey : List (List Byte) → Option (List Byte)
  | [] => none
  | k :: ks =>
    match leastKey ks with
    | none => some k
    | some k' => some (if keyLt k' k then k' else k)

/-- The canonical order of the backend's entries: by drive, then by key. -/
def FileEntry.before (x y : FileEntry) : Bool :=
  decide (x.drive < y.drive) || (x.drive == y.drive && keyLt x.key y.key)

/-- The backend's form: entries in order, none twice, each on a drive there is and under a key of 11 bytes (R246, R248). -/
def filesWf (numDrives : Nat) (files : List FileEntry) : Bool :=
  decide (files.Pairwise (fun x y => FileEntry.before x y = true)) &&
    files.all (fun x => decide (x.drive < numDrives) && x.key.length == 11)

/-! ## Control-block offsets (R245) -/

/-- The record count, +0x0F (D30). -/
def fcbRecordCount (f : Word) : Word := f + 0x0F#16

/-- The current record, +0x20. -/
def fcbCurrentRecord (f : Word) : Word := f + 0x20#16

/-! ## The functions (R250 to R267) -/

/-- Function 0, reset state (R250, D24). -/
def sysResetState (s : State) : Word × State :=
  (rcSuccess, { s with disp := { s.disp with curDrive := 0, dma := s.cfg.defaultDma, user := 0#5 } })

/-- Function 1, read one character: the byte, zero-extended; no echo (R251, D26). -/
def sysReadChar (s : State) : Word × State := (s.conValue.zeroExtend 16, s.conDrawn)

/-- Function 2, write one character (R252). -/
def sysWriteChar (de : Word) (s : State) : Word × State := (rcSuccess, s.emit (.conOut (loByte de)))

/-- The bytes from `addr` up to the first `$`, at most `fuel` of them (R253, D34). -/
def State.dollarString (s : State) (addr : Word) : Nat → List Byte
  | 0 => []
  | fuel + 1 =>
    if s.readByte addr = 0x24#8 then [] else s.readByte addr :: s.dollarString (addr + 1#16) fuel

/-- Function 9, print a `$`-terminated string, as one event (R253). -/
def sysPrintString (de : Word) (s : State) : Word × State :=
  (rcSuccess, s.emit (.conOutString (s.dollarString de 65536)))

/-- The supplied line up to its first carriage return or line feed (R254, D28). -/
def lineText (line : List Byte) : List Byte := line.takeWhile (fun v => v != 0x0D#8 && v != 0x0A#8)

/-- Function 10's characters: the line's text clamped to the maximum length at the buffer (R254). -/
def State.lineAccepted (s : State) (buf : Word) : List Byte := (lineText s.lineValue).take (s.readByte buf).toNat

/-- Function 10, buffered line read: length at +1, characters from +2, each echoed, then CR LF (R254, D28). -/
def sysReadLine (de : Word) (s : State) : Word × State :=
  let t := s.lineAccepted de
  (rcSuccess,
    (((s.lineDrawn.writeByte (de + 1#16) (BitVec.ofNat 8 t.length)).writeBytes (de + 2#16) t).emitChars t).emitChars
      [0x0D#8, 0x0A#8])

/-- Function 11, console status: always ready (R255, D27). -/
def sysConsoleStatus (s : State) : Word × State := (s.cfg.consoleReady, s)

/-- Function 13, reset disk state: the user number stays (R256, D24). -/
def sysResetDisk (s : State) : Word × State :=
  (rcSuccess, { s with disp := { s.disp with curDrive := 0, dma := s.cfg.defaultDma } })

/-- Function 14, select drive: a number that names no drive is rejected (R257, D25). -/
def sysSelectDrive (de : Word) (s : State) : Word × State :=
  if (loByte de).toNat < s.cfg.numDrives then
    (rcSuccess, { s with disp := { s.disp with curDrive := (loByte de).toNat } })
  else (rcNotFound, s)

/-- The number of 128-byte records of a blob, clamped to a byte (R258, D30). -/
def recordCount (blob : List Byte) : Byte := BitVec.ofNat 8 (min 255 ((blob.length + 127) / 128))

/-- Function 15, open: the record count to +0x0F, the cursor to 0 (R258, D30). -/
def sysOpen (de : Word) (s : State) : Word × State :=
  match getFile s.disp.files s.disp.curDrive (s.fcbKey de) with
  | none => (rcNotFound, s)
  | some blob =>
    (rcSuccess, (s.writeByte (fcbRecordCount de) (recordCount blob)).writeByte (fcbCurrentRecord de) 0#8)

/-- The 32-byte directory entry of a key: 0, the 11 key bytes, 20 zeros (R259, D31). -/
def directoryEntry (key : List Byte) : List Byte := 0#8 :: (key ++ List.replicate 20 0#8)

/-- Function 17, directory search: the first match's entry at `Dma`; no cursor is kept (R259, R262). -/
def sysSearch (de : Word) (s : State) : Word × State :=
  match leastKey (matchingKeys s.disp.files s.disp.curDrive (s.fcbKey de)) with
  | none => (rcNotFound, s)
  | some key => (rcSuccess, s.writeBytes s.disp.dma (directoryEntry key))

/-- Function 19, delete: the exact key (R260, D32). -/
def sysDelete (de : Word) (s : State) : Word × State :=
  match getFile s.disp.files s.disp.curDrive (s.fcbKey de) with
  | none => (rcNotFound, s)
  | some _ =>
    (rcSuccess,
      { s with disp := { s.disp with files := deleteFile s.disp.files s.disp.curDrive (s.fcbKey de) } })

/-- The 128 bytes of a blob from `off`, filled up with 0x1A (R261, D33). -/
def fileRecord (blob : List Byte) (off : Nat) : List Byte :=
  (List.range 128).map (fun i => blob.getD (off + i) 0x1A#8)

/-- Function 20, sequential read: the record to `Dma`, then the cursor (R261, D33). -/
def sysReadRecord (de : Word) (s : State) : Word × State :=
  match getFile s.disp.files s.disp.curDrive (s.fcbKey de) with
  | none => (rcNotFound, s)
  | some blob =>
    let cursor := s.readByte (fcbCurrentRecord de)
    if cursor.toNat * 128 ≥ blob.length then (rcEndOfFile, s)
    else
      (rcSuccess,
        (s.writeBytes s.disp.dma (fileRecord blob (cursor.toNat * 128))).writeByte (fcbCurrentRecord de) (cursor + 1#8))

/-- Function 25, report the current drive (R263). -/
def sysCurrentDrive (s : State) : Word × State := (BitVec.ofNat 16 s.disp.curDrive, s)

/-- Function 26, set the DMA address (R264). -/
def sysSetDma (de : Word) (s : State) : Word × State := (rcSuccess, { s with disp := { s.disp with dma := de } })

/-- Function 32, get the user number (R265). -/
def sysGetUser (s : State) : Word × State := (s.disp.user.zeroExtend 16, s)

/-- Function 33, set the user number to the low five bits (R266, D39). -/
def sysSetUser (de : Word) (s : State) : Word × State :=
  (rcSuccess, { s with disp := { s.disp with user := (loByte de).extractLsb' 0 5 } })

/-- Any other function number (R267, D23). -/
def sysUnhandled (s : State) : Word × State := (rcNotFound, s)

/-- `execute(function_number, bc, de, hl) -> u16`; `bc` and `hl` are accepted and ignored (R242, D21). -/
def execute (fn : Nat) (_bc de _hl : Word) (s : State) : Word × State :=
  if fn = 0 then sysResetState s
  else if fn = 1 then sysReadChar s
  else if fn = 2 then sysWriteChar de s
  else if fn = 9 then sysPrintString de s
  else if fn = 10 then sysReadLine de s
  else if fn = 11 then sysConsoleStatus s
  else if fn = 13 then sysResetDisk s
  else if fn = 14 then sysSelectDrive de s
  else if fn = 15 then sysOpen de s
  else if fn = 17 then sysSearch de s
  else if fn = 19 then sysDelete de s
  else if fn = 20 then sysReadRecord de s
  else if fn = 25 then sysCurrentDrive s
  else if fn = 26 then sysSetDma de s
  else if fn = 32 then sysGetUser s
  else if fn = 33 then sysSetUser de s
  else sysUnhandled s

/-! ## The transition `Syscall` -/

/-- What the caller sees of a result: A and HL are written, and the return address is popped (R277, D22). -/
def State.deliver (s : State) (res : Word) : State := ({ s with a := loByte res }.setHL res).doReturn

/-- `Syscall`: the function number from C, the arguments from the pairs (R277, D21). -/
def syscall (s : State) : State :=
  let r := execute s.c.toNat s.bc s.de s.hl s
  r.2.deliver r.1

end Sys2Proof.Machine
end

