-- ==== Sys2Proof/Machine/Execute.lean ====
section
/-! DEFINITION. Fetching and executing an instruction (`30_encoding.md` R81, R82), the host driver's turn
(`45_syscall_dispatcher.md` R278) and interrupt injection (`60_exceptions.md` R282). -/

namespace Sys2Proof.Machine

/-- PC moved past bytes that were fetched (R10, R24: modulo 65536). -/
def State.advancePc (s : State) (n : Nat) : State := { s with pc := s.pc + BitVec.ofNat 16 n }

/-- The instruction whose opcode byte is `op` and whose operand bytes stand at PC (R76, R82). -/
def State.instrAt (s : State) (op : Byte) : Instr := decodeOp op (s.readByte s.pc) (s.readByte (s.pc + 1#16))

/-- `Execute(op)`: the opcode byte is given, not fetched; the operand bytes are fetched at PC, and the action runs with PC
past them (R82). -/
def executeOpcode (op : Byte) (s : State) : Result :=
  exec (s.instrAt op) (s.advancePc ((s.instrAt op).length - 1))

/-- The value `step()` returns: 0 when Halted, else `CYCLES[op]` (R81, R307). -/
def stepCost (s : State) : Nat := if s.halted then 0 else s.cfg.cost (s.readByte s.pc)

/-- `step()`: nothing when Halted; else the opcode byte is fetched and executed, and the host's sum grows by the value
returned (R81, R278). -/
def coreStep (s : State) : Result :=
  if s.halted then .next s
  else executeOpcode (s.readByte s.pc) { s.advancePc 1 with total := s.total + stepCost s }

/-- `interrupt(op)`: nothing when IE is clear; else IE is cleared and `op` executed, Halted or not (R282, R284). -/
def interrupt (op : Byte) (s : State) : Result :=
  if s.ie then executeOpcode op s.acceptInterrupt else .next s

/-- Is PC at the trampoline of the driver (R277, R278)? -/
def State.atTrampoline (s : State) : Bool := s.cfg.driver && s.pc == s.cfg.syscallAddr

/-- One turn of the driver loop: the Halted test first, then the trampoline, then `step()` (R278, D35). A machine without a
driver has no trampoline. -/
def runTurn (s : State) : Result :=
  if s.halted then .next s
  else if s.atTrampoline then .next (syscall s)
  else coreStep s

end Sys2Proof.Machine
end

