-- ==== Sys2Proof/Machine/HostOps.lean ====
section
/-! DEFINITION. The boundary operations of the host (`00_scope.md` R13, R14): memory's bulk operations (`20_memory.md`
R62), the accessors (`10_state.md` R34) and the labelled transitions. -/

namespace Sys2Proof.Machine

/-- `read(addr)`: no side effect (R14, R50). -/
def hostRead (addr : Word) (s : State) : Byte := s.readByte addr

/-- `dump(addr, length)`: a copy; past the top it wraps (R62, D37). -/
def hostDump (addr : Word) (length : Nat) (s : State) : List Byte := s.readBytes addr length

/-- `write(addr, value)` (R14, R50). -/
def hostWrite (addr : Word) (v : Byte) (s : State) : State := s.writeByte addr v

/-- `load(addr, bytes)` requires `addr + len(bytes) <= 65536`; outside it, no next state: it neither wraps nor truncates
(R15, R62). -/
def hostLoad (addr : Word) (bytes : List Byte) (s : State) : Result :=
  if addr.toNat + bytes.length ≤ 65536 then .next (s.writeBytes addr bytes) else .refused .hostLoadOutOfBounds

/-- `clear()`: every byte is 0 (R62). -/
def hostClear (s : State) : State := { s with mem := [] }

/-- The accessor "Flags as a packed byte", read (R34, R27). -/
def hostFlags (s : State) : Byte := flagByte s.flags

/-- The writable accessors; the packed flags are unpacked without forcing AC (R34, R28, D36). -/
def hostSet (x : Accessor) (s : State) : State :=
  match x with
  | .reg r v => s.setReg r v
  | .sp v => { s with sp := v }
  | .pc v => { s with pc := v }
  | .flags v => { s with flags := flagsOfByte v }

/-- A labelled transition of R13. -/
def transition (t : Transition) (s : State) : Result :=
  match t with
  | .run => runTurn s
  | .reset => .next s.coreReset
  | .interrupt op => interrupt op s
  | .hostWrite addr v => .next (hostWrite addr v s)
  | .hostLoad addr bytes => hostLoad addr bytes s
  | .hostClear => .next (hostClear s)
  | .hostSet x => .next (hostSet x s)

/-- The transition to be taken now: the first the host has scheduled, else a turn of the driver (R13, R285). -/
def State.nextTransition (s : State) : Transition := s.schedule.headD .run

/-- Take the transition to be taken now; the host's schedule is used up to it. -/
def takeTurn (s : State) : Result := transition s.nextTransition { s with schedule := s.schedule.tail }

/-- The state that fetches the given bytes as its next instruction: they stand at PC, the core is running, the host has
nothing scheduled, and no trampoline stands at PC. -/
def State.placeInstruction (s : State) (bytes : List Byte) : State :=
  { s.writeBytes s.pc bytes with
    halted := false
    schedule := []
    cfg := { s.cfg with driver := s.cfg.driver && !s.atTrampoline } }

end Sys2Proof.Machine
end

