-- ==== Sys2Proof/Safety.lean ====
section
/-! DEFINITION. The terms claims about the machine use: the invariant, the arithmetic of the flag rules written on numbers,
what an instruction may write, and running a list of instructions. -/

namespace Sys2Proof.Safety

open Sys2Proof.Machine

/-! ## The invariant -/

/-- What every transition keeps: memory is in its canonical form, the backend is in its form, the current drive is one of
the drives (R37, R257), and the cycle table has an entry for each opcode (R6, R7). -/
abbrev Inv (s : State) : Prop :=
  Memory.wf s.mem = true ∧ filesWf s.cfg.numDrives s.disp.files = true ∧ s.disp.curDrive < s.cfg.numDrives ∧
    s.cfg.cycles.length = 256

/-! ## Outcomes -/

/-- Run instructions one after the other, each by its meaning. -/
def runInstrs : List Instr → State → Result
  | [], s => .next s
  | i :: is, s =>
    match exec i s with
    | .next t => runInstrs is t
    | .fault r => .fault r
    | .refused r => .refused r

/-! ## Flag rules on numbers -/

/-- The number of 1 bits of a byte (R100). -/
def onesOf (v : Byte) : Nat :=
  (v.getLsbD 0).toNat + (v.getLsbD 1).toNat + (v.getLsbD 2).toNat + (v.getLsbD 3).toNat +
    (v.getLsbD 4).toNat + (v.getLsbD 5).toNat + (v.getLsbD 6).toNat + (v.getLsbD 7).toNat

/-- S, Z and P are those of the result byte `r` (R101). -/
structure ResultFlags (r : Byte) (f : Flags) : Prop where
  zero : f.zero = true ↔ r.toNat = 0
  sign : f.sign = true ↔ 128 ≤ r.toNat
  parity : f.parity = true ↔ onesOf r % 2 = 0

/-- `r` and `f` are the result and flags of the 8-bit add path (R102). -/
structure AddResult (x y : Byte) (cin : Bool) (r : Byte) (f : Flags) : Prop where
  value : r.toNat = (x.toNat + y.toNat + cin.toNat) % 256
  szp : ResultFlags r f
  carry : f.carry = true ↔ 255 < x.toNat + y.toNat + cin.toNat
  auxCarry : f.auxCarry = true ↔ 15 < x.toNat % 16 + y.toNat % 16 + cin.toNat

/-- `r` and `f` are the result and flags of the 8-bit subtract path: CY and AC are borrows (R103). -/
structure SubResult (x y : Byte) (bin : Bool) (r : Byte) (f : Flags) : Prop where
  value : (r.toNat : Int) = ((x.toNat : Int) - y.toNat - bin.toNat) % 256
  szp : ResultFlags r f
  carry : f.carry = true ↔ x.toNat < y.toNat + bin.toNat
  auxCarry : f.auxCarry = true ↔ x.toNat % 16 < y.toNat % 16 + bin.toNat

/-- `r` and `f` are the result and flags of a logical operation: CY clear, AC as given (R140, R142). -/
structure LogicResult (r : Byte) (ac : Bool) (f : Flags) : Prop where
  szp : ResultFlags r f
  carry : f.carry = false
  auxCarry : f.auxCarry = ac

/-! ## What changed -/

/-- A and the flags alone may differ. -/
def OnlyAF (s t : State) : Prop := t = { s with a := t.a, flags := t.flags }

/-- The general registers alone may differ. -/
def OnlyRegs (s t : State) : Prop :=
  t = { s with a := t.a, b := t.b, c := t.c, d := t.d, e := t.e, h := t.h, l := t.l }

/-- The register `r` holds `v` and the other general registers are as before. -/
def RegBecomes (s t : State) (r : Reg) (v : Byte) : Prop := t.reg r = v ∧ ∀ r', r' ≠ r → t.reg r' = s.reg r'

/-- Every byte of memory outside `addrs` reads as before. -/
def SameMemoryBut (addrs : List Word) (s t : State) : Prop := ∀ k : Word, k ∉ addrs → t.readByte k = s.readByte k

/-- The pair `p` holds `v`, the other pairs are as before, and nothing but pairs may differ. -/
def PairBecomes (s t : State) (p : Pair) (v : Word) : Prop :=
  t.pair p = v ∧ (∀ p', p' ≠ p → t.pair p' = s.pair p') ∧
    t = { s with b := t.b, c := t.c, d := t.d, e := t.e, h := t.h, l := t.l, sp := t.sp }

/-- The instruction stores the one byte `v` at `addr` and changes nothing else. -/
def StoresByte (i : Instr) (s : State) (addr : Word) (v : Byte) : Prop :=
  ∃ t, exec i s = .next t ∧ t.readByte addr = v ∧ SameMemoryBut [addr] s t ∧ t = { s with mem := t.mem }

/-- The instruction pushes `w` and goes on at `target`: the high byte at SP-1, the low byte at SP-2, SP 2 lower, nothing
else changed (R11). -/
def PushesAndGoesTo (i : Instr) (s : State) (w target : Word) : Prop :=
  ∃ t, exec i s = .next t ∧
    (t.readByte (s.sp - 1#16)).toNat = w.toNat / 256 ∧ (t.readByte (s.sp - 2#16)).toNat = w.toNat % 256 ∧
    SameMemoryBut [s.sp - 1#16, s.sp - 2#16] s t ∧
    t = { s with mem := t.mem, sp := s.sp - 2#16, pc := target }

/-- The instruction changes PC alone, to `target`. -/
def GoesTo (i : Instr) (s : State) (target : Word) : Prop := exec i s = .next { s with pc := target }

/-- The word whose low byte is at `addr` and whose high byte is at `addr + 1` (R52). -/
def wordAt (s : State) (addr : Word) : Nat := (s.readByte addr).toNat + 256 * (s.readByte (addr + 1#16)).toNat

/-- The instruction returns: PC is the word on top of the stack, SP 2 higher, nothing else changed (R181). -/
def Returns (i : Instr) (s : State) : Prop :=
  ∃ t, exec i s = .next t ∧ t.pc.toNat = wordAt s s.sp ∧ t = { s with pc := t.pc, sp := s.sp + 2#16 }

/-! ## What an instruction may write -/

/-- The addresses of the bytes an instruction stores to, computed in the state it runs in (R54, R222, R224, R227, R229,
R231, R126, R128, R200, R201, R171, R172, R193, R204). -/
def storedBytes (i : Instr) (s : State) : List Word :=
  let stack := [s.sp - 1#16, s.sp - 2#16]
  let stackIf (cond : Cond) := if condHolds cond s.flags then stack else []
  match i with
  | .movMR _ | .mviM _ | .inrM | .dcrM => [s.hl]
  | .sta a16 => [a16]
  | .shld a16 => [a16, a16 + 1#16]
  | .stax rp => [s.indexPair rp]
  | .push _ | .pushPsw | .call _ | .rst _ => stack
  | .cnz _ => stackIf .nz
  | .cz _ => stackIf .z
  | .cnc _ => stackIf .nc
  | .cc _ => stackIf .c
  | .cpo _ => stackIf .po
  | .cpe _ => stackIf .pe
  | .cp _ => stackIf .p
  | .cm _ => stackIf .m
  | .xthl => [s.sp, s.sp + 1#16]
  | .movRR _ _ | .movRM _ | .mviR _ _ | .lxi _ _ | .lda _ | .lhld _ | .ldax _ | .xchg | .addR _ | .addM
  | .adi _ | .adcR _ | .adcM | .aci _ | .subR _ | .subM | .sui _ | .sbbR _ | .sbbM | .sbi _ | .cmpR _ | .cmpM
  | .cpi _ | .inrR _ | .dcrR _ | .inx _ | .dcx _ | .dad _ | .daa | .anaR _ | .anaM | .ani _ | .xraR _ | .xraM
  | .xri _ | .oraR _ | .oraM | .ori _ | .rlc | .rrc | .ral | .rar | .cma | .stc | .cmc | .jmp _ | .jnz _
  | .jz _ | .jnc _ | .jc _ | .jpo _ | .jpe _ | .jp _ | .jm _ | .ret | .rnz | .rz | .rnc | .rc | .rpo | .rpe
  | .rp | .rm | .pchl | .pop _ | .popPsw | .sphl | .inp _ | .outp _ | .ei | .di | .hlt | .nop | .undef _ => []

/-- The registers of a pair, SP not being one (R21, R74). -/
def pairRegs : Pair → List Reg
  | .bc => [.b, .c]
  | .de => [.d, .e]
  | .hl => [.h, .l]
  | .sp => []

/-- The registers of a pair of PUSH and POP (R21, R74). -/
def stackPairRegs : StackPair → List Reg
  | .bc => [.b, .c]
  | .de => [.d, .e]
  | .hl => [.h, .l]

/-- The general registers an instruction writes. -/
def writtenRegs : Instr → List Reg
  | .movRR dst _ | .movRM dst | .mviR dst _ | .inrR dst | .dcrR dst => [dst]
  | .lxi rp _ | .inx rp | .dcx rp => pairRegs rp
  | .pop rp => stackPairRegs rp
  | .lda _ | .ldax _ | .inp _ | .popPsw | .daa | .rlc | .rrc | .ral | .rar | .cma => [.a]
  | .addR _ | .addM | .adi _ | .adcR _ | .adcM | .aci _ => [.a]
  | .subR _ | .subM | .sui _ | .sbbR _ | .sbbM | .sbi _ => [.a]
  | .anaR _ | .anaM | .ani _ | .xraR _ | .xraM | .xri _ | .oraR _ | .oraM | .ori _ => [.a]
  | .lhld _ | .dad _ | .xthl => [.h, .l]
  | .xchg => [.d, .e, .h, .l]
  | .movMR _ | .mviM _ | .sta _ | .shld _ | .stax _ | .cmpR _ | .cmpM | .cpi _ | .inrM | .dcrM | .stc | .cmc
  | .jmp _ | .jnz _ | .jz _ | .jnc _ | .jc _ | .jpo _ | .jpe _ | .jp _ | .jm _ | .call _ | .cnz _ | .cz _
  | .cnc _ | .cc _ | .cpo _ | .cpe _ | .cp _ | .cm _ | .ret | .rnz | .rz | .rnc | .rc | .rpo | .rpe | .rp | .rm
  | .rst _ | .pchl | .push _ | .pushPsw | .sphl | .outp _ | .ei | .di | .hlt | .nop | .undef _ => []

/-- Does the instruction write SP (R23)? -/
def writesSp : Instr → Bool
  | .lxi rp _ | .inx rp | .dcx rp => rp == .sp
  | .sphl => true
  | .push _ | .pushPsw | .pop _ | .popPsw | .call _ | .rst _ | .ret => true
  | .cnz _ | .cz _ | .cnc _ | .cc _ | .cpo _ | .cpe _ | .cp _ | .cm _ => true
  | .rnz | .rz | .rnc | .rc | .rpo | .rpe | .rp | .rm => true
  | .movRR _ _ | .movRM _ | .movMR _ | .mviR _ _ | .mviM _ | .lda _ | .sta _ | .lhld _ | .shld _ | .ldax _
  | .stax _ | .xchg | .addR _ | .addM | .adi _ | .adcR _ | .adcM | .aci _ | .subR _ | .subM | .sui _ | .sbbR _
  | .sbbM | .sbi _ | .cmpR _ | .cmpM | .cpi _ | .inrR _ | .inrM | .dcrR _ | .dcrM | .dad _ | .daa | .anaR _
  | .anaM | .ani _ | .xraR _ | .xraM | .xri _ | .oraR _ | .oraM | .ori _ | .rlc | .rrc | .ral | .rar | .cma
  | .stc | .cmc | .jmp _ | .jnz _ | .jz _ | .jnc _ | .jc _ | .jpo _ | .jpe _ | .jp _ | .jm _ | .pchl | .xthl
  | .inp _ | .outp _ | .ei | .di | .hlt | .nop | .undef _ => false

/-- Does the instruction write PC, beyond the advance of the fetch (R24)? -/
def writesPc : Instr → Bool
  | .jmp _ | .jnz _ | .jz _ | .jnc _ | .jc _ | .jpo _ | .jpe _ | .jp _ | .jm _ | .pchl => true
  | .call _ | .cnz _ | .cz _ | .cnc _ | .cc _ | .cpo _ | .cpe _ | .cp _ | .cm _ | .rst _ => true
  | .ret | .rnz | .rz | .rnc | .rc | .rpo | .rpe | .rp | .rm => true
  | .movRR _ _ | .movRM _ | .movMR _ | .mviR _ _ | .mviM _ | .lxi _ _ | .lda _ | .sta _ | .lhld _ | .shld _
  | .ldax _ | .stax _ | .xchg | .addR _ | .addM | .adi _ | .adcR _ | .adcM | .aci _ | .subR _ | .subM | .sui _
  | .sbbR _ | .sbbM | .sbi _ | .cmpR _ | .cmpM | .cpi _ | .inrR _ | .inrM | .dcrR _ | .dcrM | .inx _ | .dcx _
  | .dad _ | .daa | .anaR _ | .anaM | .ani _ | .xraR _ | .xraM | .xri _ | .oraR _ | .oraM | .ori _ | .rlc
  | .rrc | .ral | .rar | .cma | .stc | .cmc | .push _ | .pushPsw | .pop _ | .popPsw | .xthl | .sphl | .inp _
  | .outp _ | .ei | .di | .hlt | .nop | .undef _ => false

/-- The flags an instruction writes, as a mask: the rows of R26's table. -/
def writtenFlags : Instr → Flags
  | .addR _ | .addM | .adi _ | .adcR _ | .adcM | .aci _ => ⟨true, true, true, true, true⟩
  | .subR _ | .subM | .sui _ | .sbbR _ | .sbbM | .sbi _ => ⟨true, true, true, true, true⟩
  | .cmpR _ | .cmpM | .cpi _ | .daa | .popPsw => ⟨true, true, true, true, true⟩
  | .anaR _ | .anaM | .ani _ | .xraR _ | .xraM | .xri _ | .oraR _ | .oraM | .ori _ => ⟨true, true, true, true, true⟩
  | .inrR _ | .inrM | .dcrR _ | .dcrM =>
    { sign := true, zero := true, auxCarry := true, parity := true, carry := false }
  | .dad _ | .rlc | .rrc | .ral | .rar | .stc | .cmc =>
    { sign := false, zero := false, auxCarry := false, parity := false, carry := true }
  | .movRR _ _ | .movRM _ | .movMR _ | .mviR _ _ | .mviM _ | .lxi _ _ | .lda _ | .sta _ | .lhld _ | .shld _
  | .ldax _ | .stax _ | .xchg | .inx _ | .dcx _ | .cma | .jmp _ | .jnz _ | .jz _ | .jnc _ | .jc _ | .jpo _
  | .jpe _ | .jp _ | .jm _ | .call _ | .cnz _ | .cz _ | .cnc _ | .cc _ | .cpo _ | .cpe _ | .cp _ | .cm _ | .ret
  | .rnz | .rz | .rnc | .rc | .rpo | .rpe | .rp | .rm | .rst _ | .pchl | .push _ | .pushPsw | .pop _ | .xthl
  | .sphl | .inp _ | .outp _ | .ei | .di | .hlt | .nop | .undef _ => Flags.clear

/-- Every flag outside a mask is as before. -/
structure SameFlagsBut (mask f g : Flags) : Prop where
  sign : mask.sign = false → g.sign = f.sign
  zero : mask.zero = false → g.zero = f.zero
  auxCarry : mask.auxCarry = false → g.auxCarry = f.auxCarry
  parity : mask.parity = false → g.parity = f.parity
  carry : mask.carry = false → g.carry = f.carry

/-! ## A machine about to run one opcode byte -/

/-- The next transition is a `step()` that fetches the opcode byte `op` (R81, R278). -/
def Fetches (s : State) (op : Byte) : Prop :=
  s.nextTransition = .run ∧ s.halted = false ∧ s.atTrampoline = false ∧ s.readByte s.pc = op

/-- The next transition is an accepted `interrupt(op)` (R282). -/
def Accepts (s : State) (op : Byte) : Prop := s.nextTransition = .interrupt op ∧ s.ie = true

/-! ## Decimal numbers -/

/-- Two decimal digits, tens and ones, packed in a byte. -/
def bcd (tens ones : Nat) : Byte := BitVec.ofNat 8 (tens * 16 + ones)

end Sys2Proof.Safety
end

