-- ==== Sys2Proof/Certificates/Slice0/Obligations.lean ====
section
/-! DEFINITION. The statements about the machine, for the provers. Each docstring names the rules of the spec it
formalises. -/

open Sys2Proof Sys2Proof.Machine Sys2Proof.Safety

/-! ## Decoding and encoding -/

/-- R71 to R78: the decoder reads back every instruction's bytes, every operand at every value, whatever follows.
`encode` is the model's own (log 2); the map is the spec's "general knowledge", the order of the operand bytes its decision
D1, the undefined opcodes its decision D15. -/
def Obligations.DecodeOfEncodeGivesTheInstructionBack : Prop :=
  ∀ (i : Instr) (rest : List Byte), i.wellFormed = true → decode (encode i ++ rest) = .ok (i, rest)

/-- R77, R82: every opcode byte decodes to an instruction of the map, whose bytes are the bytes read. `encode` is
the model's own (log 2); the order of the operand bytes is the spec's decision D1, the undefined opcodes its decision D15. -/
def Obligations.EncodeOfDecodeGivesTheBytesBack : Prop :=
  ∀ op b1 b2 : Byte, (decodeOp op b1 b2).wellFormed = true ∧
    encode (decodeOp op b1 b2) = [op, b1, b2].take (decodeOp op b1 b2).length

/-- R70: one to three bytes, and the opcode byte alone fixes how many. -/
def Obligations.OpcodeByteAloneFixesTheLength : Prop :=
  ∀ op : Byte, ∃ n, 1 ≤ n ∧ n ≤ 3 ∧ ∀ b1 b2 : Byte, (decodeOp op b1 b2).length = n

/-- R78, R214: exactly twelve opcode values are undefined, and each is one byte long. That they are these twelve is
the spec's decision D15. -/
def Obligations.UndefinedOpcodesAreTheTwelve : Prop :=
  ∀ op b1 b2 : Byte,
    ((∃ x, decodeOp op b1 b2 = .undef x) ↔
      op.toNat ∈ [0x08, 0x10, 0x18, 0x20, 0x28, 0x30, 0x38, 0xCB, 0xD9, 0xDD, 0xED, 0xFD]) ∧
    (∀ x, decodeOp op b1 b2 = .undef x → x = op ∧ (decodeOp op b1 b2).length = 1)

/-- R72 to R78: bytes written out from the encodings decode to the instructions they stand for. That the first operand
byte is the low one (the LXI and JZ rows) is the spec's decision D1 in R76 (log 22), that 0xCB is undefined its decision
D15 (log 17), and the map its "general knowledge". -/
def Obligations.WrittenOutBytesDecode : Prop :=
  decode [0b01000111#8] = .ok (.movRR .b .a, []) ∧
  decode [0b00110110#8, 0xFF#8] = .ok (.mviM 0xFF#8, []) ∧
  decode [0b00100001#8, 0x34#8, 0x12#8] = .ok (.lxi .hl 0x1234#16, []) ∧
  decode [0b10001001#8] = .ok (.adcR .c, []) ∧
  decode [0b00011001#8] = .ok (.dad .de, []) ∧
  decode [0b11101110#8, 0x81#8] = .ok (.xri 0x81#8, []) ∧
  decode [0b11001010#8, 0x00#8, 0x02#8] = .ok (.jz 0x0200#16, []) ∧
  decode [0b11101111#8] = .ok (.rst 5#3, []) ∧
  decode [0b11110101#8] = .ok (.pushPsw, []) ∧
  decode [0b01110110#8] = .ok (.hlt, []) ∧
  decode [0b11001011#8, 0x00#8, 0x02#8] = .ok (.undef 0xCB#8, [0x00#8, 0x02#8])

/-! ## The step -/

/-- R81, R82, R24, R307: a step that is not halted and not at the trampoline runs the instruction whose bytes stand at
PC, with PC past it, and returns the opcode's cost, which the host's sum grows by; in a table of 256 entries (every
opcode's, R7) the cost is the entry at the opcode. That the table is a list, its length, the schedule and the sum in the
state are the model's own (log 4, 8, 9, 18); the byte order of an operand is the spec's decision D1, the trampoline D20. -/
def Obligations.StepRunsTheInstructionAtPc : Prop :=
  ∀ (s : State) (i : Instr) (rest : List Byte),
    s.nextTransition = .run → s.halted = false → s.atTrampoline = false →
    decode [s.readByte s.pc, s.readByte (s.pc + 1#16), s.readByte (s.pc + 2#16)] = .ok (i, rest) →
    step s = exec i { s with
      schedule := s.schedule.tail
      pc := s.pc + BitVec.ofNat 16 i.length
      total := s.total + s.cfg.cost (s.readByte s.pc) } ∧
    stepCost s = s.cfg.cost (s.readByte s.pc) ∧
    (s.cfg.cycles.length = 256 → s.cfg.cycles[(s.readByte s.pc).toNat]? = some (stepCost s))

/-- R29, R81: while Halted is set a step changes nothing and returns 0 (the host's schedule, the model's own, is used up). -/
def Obligations.HaltedStepChangesNothing : Prop :=
  ∀ s : State, s.nextTransition = .run → s.halted = true →
    stepCost s = 0 ∧ step s = .next { s with schedule := s.schedule.tail }

/-- R29: Halted is set by executing 0x76 and by nothing else, and cleared by reset and by nothing else. The schedule
is the model's own (log 4); an injected HLT halts by R284, and that an interrupt does not wake the core is the spec's
decision D17. -/
def Obligations.HaltedIsSetByHltAndClearedByReset : Prop :=
  ∀ s t : State, step s = .next t →
    (s.halted = false → (t.halted = true ↔ Fetches s 0x76#8 ∨ Accepts s 0x76#8)) ∧
    (s.halted = true → (t.halted = false ↔ s.nextTransition = .reset))

/-- R30: IE is set by EI, cleared by DI, by an accepted interrupt and by reset, and by nothing else; an accepted
`interrupt(0xFB)` leaves it set, since the injected EI sets it again. The schedule is the model's own (log 4); that
EI and DI act at once is the spec's decision D13. -/
def Obligations.InterruptEnableIsWrittenByFour : Prop :=
  ∀ s t : State, step s = .next t →
    (s.ie = false → (t.ie = true ↔ Fetches s 0xFB#8)) ∧
    (s.ie = true → (t.ie = false ↔
      Fetches s 0xF3#8 ∨ (∃ op, op ≠ 0xFB#8 ∧ s.nextTransition = .interrupt op) ∨ s.nextTransition = .reset))

/-- R15, R280: every transition yields a next state, but a host load past the top of memory, which has none. -/
def Obligations.OnlyAnOutOfBoundsLoadHasNoNextState : Prop :=
  ∀ (tr : Transition) (s : State),
    (∀ addr bytes, tr = .hostLoad addr bytes → 65536 < addr.toNat + bytes.length →
      transition tr s = .refused .hostLoadOutOfBounds) ∧
    ((¬ ∃ addr bytes, tr = .hostLoad addr bytes ∧ 65536 < addr.toNat + bytes.length) →
      ∃ t, transition tr s = .next t)

/-! ## What any instruction may write -/

/-- R54, R11, R126, R128, R222, R224, R227, R229, R231, R171, R172, R193, R200, R201, R204: every instruction completes,
and every byte outside those it stores to reads as before. The stack's layout is the spec's decision D2, the second byte
of SHLD and XTHL at the next address its decision D1. -/
def Obligations.EveryInstructionKeepsOtherMemory : Prop :=
  ∀ (i : Instr) (s : State), ∃ t, exec i s = .next t ∧ SameMemoryBut (storedBytes i s) s t

/-- R26: every instruction completes, and writes no flag outside its row of the table. Which instruction writes
which flag is R26's table, partly the spec's "general knowledge". -/
def Obligations.EveryInstructionKeepsOtherFlags : Prop :=
  ∀ (i : Instr) (s : State), ∃ t, exec i s = .next t ∧ SameFlagsBut (writtenFlags i) s.flags t.flags

/-- R20 to R24, R29, R30, R37: every instruction completes, and writes no register, SP, PC, Halted, IE, trace or input it
does not name; none writes the dispatcher's state. -/
def Obligations.EveryInstructionKeepsOtherState : Prop :=
  ∀ (i : Instr) (s : State), ∃ t, exec i s = .next t ∧
    (∀ r, r ∉ writtenRegs i → t.reg r = s.reg r) ∧
    (writesSp i = false → t.sp = s.sp) ∧ (writesPc i = false → t.pc = s.pc) ∧
    (i ≠ .hlt → t.halted = s.halted) ∧ (i ≠ .ei → i ≠ .di → t.ie = s.ie) ∧
    (i ≠ .hlt → (∀ p, i ≠ .outp p) → t.trace = s.trace) ∧ ((∀ p, i ≠ .inp p) → t.inputs = s.inputs) ∧
    t.disp = s.disp ∧ t.cfg = s.cfg ∧ t.total = s.total ∧ t.schedule = s.schedule

/-! ## The invariant, construction and reset -/

/-- Every transition keeps the invariant: canonical memory, the backend's form, a current drive that exists, a whole
cycle table. The invariant, the schedule and the backend's form are the model's own (log 4, 6, 9). -/
def Obligations.EveryStepKeepsTheInvariant : Prop := ∀ s t : State, Inv s → step s = .next t → Inv t

/-- The machine at construction meets the invariant. The parameters, the inputs and the backend at construction are
the model's own (log 3, 5, 6). -/
def Obligations.ConstructionMeetsTheInvariant : Prop := Inv State.reset

/-- R302, R42, R43, R44: what the machine holds at construction. The registers and the dispatcher at construction
are the spec's decisions D18 and D24. -/
def Obligations.ConstructionStateIsZero : Prop :=
  (∀ r, State.reset.reg r = 0#8) ∧ State.reset.sp = 0#16 ∧ State.reset.pc = 0#16 ∧ State.reset.flags = Flags.clear ∧
  flagByte State.reset.flags = 0x02#8 ∧ State.reset.halted = false ∧ State.reset.ie = false ∧
  (∀ k, State.reset.readByte k = 0#8) ∧ State.reset.trace = [] ∧ State.reset.disp.curDrive = 0 ∧
  State.reset.disp.user = 0#5 ∧ State.reset.disp.dma = State.reset.cfg.defaultDma

/-- R300, R301, R41: `reset()` zeroes registers, flags, PC, SP, Halted and IE, touches nothing else, and is
idempotent; after it `interrupt(op)` changes nothing. What reset leaves alone is the spec's decision D18. -/
def Obligations.ResetZeroesTheCoreAndNothingElse : Prop :=
  ∀ s : State, ∃ t, transition .reset s = .next t ∧
    (∀ r, t.reg r = 0#8) ∧ t.flags = Flags.clear ∧ flagByte t.flags = 0x02#8 ∧ t.pc = 0#16 ∧ t.sp = 0#16 ∧
    t.halted = false ∧ t.ie = false ∧
    t.mem = s.mem ∧ t.disp = s.disp ∧ t.trace = s.trace ∧ t.total = s.total ∧ t.cfg = s.cfg ∧ t.inputs = s.inputs ∧
    t.schedule = s.schedule ∧ transition .reset t = .next t ∧ ∀ op, interrupt op t = .next t

/-! ## Data transfer -/

/-- R220, R221, R223, R226, R230: the loads of one register, every register and memory form. -/
def Obligations.RegisterLoadsWriteOneRegister : Prop :=
  ∀ s : State,
    (∀ dst src, ∃ t, exec (.movRR dst src) s = .next t ∧ RegBecomes s t dst (s.reg src) ∧ OnlyRegs s t) ∧
    (∀ dst, ∃ t, exec (.movRM dst) s = .next t ∧ RegBecomes s t dst (s.readByte s.hl) ∧ OnlyRegs s t) ∧
    (∀ dst d8, ∃ t, exec (.mviR dst d8) s = .next t ∧ RegBecomes s t dst d8 ∧ OnlyRegs s t) ∧
    (∀ a16, ∃ t, exec (.lda a16) s = .next t ∧ RegBecomes s t .a (s.readByte a16) ∧ OnlyRegs s t) ∧
    (∀ rp, ∃ t, exec (.ldax rp) s = .next t ∧ RegBecomes s t .a (s.readByte (s.indexPair rp)) ∧ OnlyRegs s t)

/-- R225, R228, R232, R205: the loads of a pair, SP among them. The byte order is the spec's decision D1. -/
def Obligations.PairLoadsWriteOnePair : Prop :=
  ∀ s : State,
    (∀ rp d16, ∃ t, exec (.lxi rp d16) s = .next t ∧ PairBecomes s t rp d16) ∧
    (∀ a16, ∃ t, exec (.lhld a16) s = .next t ∧ t.l = s.readByte a16 ∧ t.h = s.readByte (a16 + 1#16) ∧
      t = { s with h := t.h, l := t.l }) ∧
    (exec .sphl s = .next { s with sp := s.hl }) ∧
    (exec .xchg s = .next { s with d := s.h, e := s.l, h := s.d, l := s.e })

/-- R21, R225: a pair's high half is the first-named register; byte 2 of the operand goes there, byte 1 to the low
one. The order of the halves of DE and HL is the spec's inference in R21. -/
def Obligations.PairWriteSetsBothHalves : Prop :=
  ∀ (s : State) (v : Word),
    (∃ t, exec (.lxi .bc v) s = .next t ∧ t.b.toNat = v.toNat / 256 ∧ t.c.toNat = v.toNat % 256) ∧
    (∃ t, exec (.lxi .de v) s = .next t ∧ t.d.toNat = v.toNat / 256 ∧ t.e.toNat = v.toNat % 256) ∧
    (∃ t, exec (.lxi .hl v) s = .next t ∧ t.h.toNat = v.toNat / 256 ∧ t.l.toNat = v.toNat % 256) ∧
    s.bc.toNat = s.b.toNat * 256 + s.c.toNat ∧ s.de.toNat = s.d.toNat * 256 + s.e.toNat ∧
    s.hl.toNat = s.h.toNat * 256 + s.l.toNat

/-- R222, R224, R227, R231: the one-byte stores. -/
def Obligations.ByteStoresWriteOneByte : Prop :=
  ∀ s : State, Memory.wf s.mem = true →
    (∀ src, StoresByte (.movMR src) s s.hl (s.reg src)) ∧ (∀ d8, StoresByte (.mviM d8) s s.hl d8) ∧
    (∀ a16, StoresByte (.sta a16) s a16 s.a) ∧ (∀ rp, StoresByte (.stax rp) s (s.indexPair rp) s.a)

/-- R229, R52: SHLD stores L at the address and H at the next one, modulo 65536. The byte order is the spec's
decision D1. -/
def Obligations.ShldStoresLowByteFirst : Prop :=
  ∀ (s : State) (a16 : Word), Memory.wf s.mem = true →
    ∃ t, exec (.shld a16) s = .next t ∧ t.readByte a16 = s.l ∧ t.readByte (a16 + 1#16) = s.h ∧
      SameMemoryBut [a16, a16 + 1#16] s t ∧ t = { s with mem := t.mem }

/-! ## Arithmetic -/

/-- R102, R105 to R110: ADD, ADC, ADI, ACI in every form. -/
def Obligations.AddGroupWritesSumAndFlags : Prop :=
  ∀ s : State,
    (∀ r, ∃ t, exec (.addR r) s = .next t ∧ AddResult s.a (s.reg r) false t.a t.flags ∧ OnlyAF s t) ∧
    (∃ t, exec .addM s = .next t ∧ AddResult s.a (s.readByte s.hl) false t.a t.flags ∧ OnlyAF s t) ∧
    (∀ d8, ∃ t, exec (.adi d8) s = .next t ∧ AddResult s.a d8 false t.a t.flags ∧ OnlyAF s t) ∧
    (∀ r, ∃ t, exec (.adcR r) s = .next t ∧ AddResult s.a (s.reg r) s.flags.carry t.a t.flags ∧ OnlyAF s t) ∧
    (∃ t, exec .adcM s = .next t ∧ AddResult s.a (s.readByte s.hl) s.flags.carry t.a t.flags ∧ OnlyAF s t) ∧
    (∀ d8, ∃ t, exec (.aci d8) s = .next t ∧ AddResult s.a d8 s.flags.carry t.a t.flags ∧ OnlyAF s t)

/-- R103, R111 to R116: SUB, SBB, SUI, SBI in every form. That AC is the borrow is the spec's decision D5. -/
def Obligations.SubGroupWritesDifferenceAndBorrows : Prop :=
  ∀ s : State,
    (∀ r, ∃ t, exec (.subR r) s = .next t ∧ SubResult s.a (s.reg r) false t.a t.flags ∧ OnlyAF s t) ∧
    (∃ t, exec .subM s = .next t ∧ SubResult s.a (s.readByte s.hl) false t.a t.flags ∧ OnlyAF s t) ∧
    (∀ d8, ∃ t, exec (.sui d8) s = .next t ∧ SubResult s.a d8 false t.a t.flags ∧ OnlyAF s t) ∧
    (∀ r, ∃ t, exec (.sbbR r) s = .next t ∧ SubResult s.a (s.reg r) s.flags.carry t.a t.flags ∧ OnlyAF s t) ∧
    (∃ t, exec .sbbM s = .next t ∧ SubResult s.a (s.readByte s.hl) s.flags.carry t.a t.flags ∧ OnlyAF s t) ∧
    (∀ d8, ∃ t, exec (.sbi d8) s = .next t ∧ SubResult s.a d8 s.flags.carry t.a t.flags ∧ OnlyAF s t)

/-- R117 to R119: CMP and CPI leave the flags of a subtraction and write nothing else; Z says equal, CY says below.
That AC is the borrow is the spec's decision D5; CMP itself is D10. -/
def Obligations.CompareWritesFlagsOnly : Prop :=
  ∀ s : State,
    (∀ r, ∃ t x, exec (.cmpR r) s = .next t ∧ SubResult s.a (s.reg r) false x t.flags ∧ t = { s with flags := t.flags } ∧
      (t.flags.zero = true ↔ s.a = s.reg r) ∧ (t.flags.carry = true ↔ s.a.toNat < (s.reg r).toNat)) ∧
    (∃ t x, exec .cmpM s = .next t ∧ SubResult s.a (s.readByte s.hl) false x t.flags ∧ t = { s with flags := t.flags } ∧
      (t.flags.zero = true ↔ s.a = s.readByte s.hl) ∧ (t.flags.carry = true ↔ s.a.toNat < (s.readByte s.hl).toNat)) ∧
    (∀ d8, ∃ t x, exec (.cpi d8) s = .next t ∧ SubResult s.a d8 false x t.flags ∧ t = { s with flags := t.flags } ∧
      (t.flags.zero = true ↔ s.a = d8) ∧ (t.flags.carry = true ↔ s.a.toNat < d8.toNat))

/-- R125, R127: INR r and DCR r; INR's AC is the carry out of bit 3, DCR's is always set, CY is kept. -/
def Obligations.RegisterIncrementKeepsCarry : Prop :=
  ∀ (s : State) (r : Reg),
    (∃ t, exec (.inrR r) s = .next t ∧ (t.reg r).toNat = ((s.reg r).toNat + 1) % 256 ∧
      (∀ r', r' ≠ r → t.reg r' = s.reg r') ∧ ResultFlags (t.reg r) t.flags ∧
      (t.flags.auxCarry = true ↔ (s.reg r).toNat % 16 = 15) ∧ t.flags.carry = s.flags.carry ∧
      OnlyRegs { s with flags := t.flags } t) ∧
    (∃ t, exec (.dcrR r) s = .next t ∧ (t.reg r).toNat = ((s.reg r).toNat + 255) % 256 ∧
      (∀ r', r' ≠ r → t.reg r' = s.reg r') ∧ ResultFlags (t.reg r) t.flags ∧
      t.flags.auxCarry = true ∧ t.flags.carry = s.flags.carry ∧ OnlyRegs { s with flags := t.flags } t)

/-- R126, R128: INR M and DCR M do the same to the byte at HL. That the flags are those of the register forms is the
spec's decision D7. -/
def Obligations.MemoryIncrementKeepsCarry : Prop :=
  ∀ s : State, Memory.wf s.mem = true →
    (∃ t, exec .inrM s = .next t ∧ (t.readByte s.hl).toNat = ((s.readByte s.hl).toNat + 1) % 256 ∧
      SameMemoryBut [s.hl] s t ∧ ResultFlags (t.readByte s.hl) t.flags ∧
      (t.flags.auxCarry = true ↔ (s.readByte s.hl).toNat % 16 = 15) ∧ t.flags.carry = s.flags.carry ∧
      t = { s with mem := t.mem, flags := t.flags }) ∧
    (∃ t, exec .dcrM s = .next t ∧ (t.readByte s.hl).toNat = ((s.readByte s.hl).toNat + 255) % 256 ∧
      SameMemoryBut [s.hl] s t ∧ ResultFlags (t.readByte s.hl) t.flags ∧
      t.flags.auxCarry = true ∧ t.flags.carry = s.flags.carry ∧ t = { s with mem := t.mem, flags := t.flags })

/-- R130, R131: INX and DCX wrap modulo 65536 and write no flag. -/
def Obligations.PairIncrementWritesNoFlag : Prop :=
  ∀ (s : State) (rp : Pair),
    (∃ t, exec (.inx rp) s = .next t ∧ (t.pair rp).toNat = ((s.pair rp).toNat + 1) % 65536 ∧ PairBecomes s t rp (t.pair rp)) ∧
    (∃ t, exec (.dcx rp) s = .next t ∧ (t.pair rp).toNat = ((s.pair rp).toNat + 65535) % 65536 ∧
      PairBecomes s t rp (t.pair rp))

/-- R133: DAD adds a pair to HL and writes CY alone of the flags. -/
def Obligations.DadWritesHlAndCarryOnly : Prop :=
  ∀ (s : State) (rp : Pair), ∃ t, exec (.dad rp) s = .next t ∧
    t.hl.toNat = (s.hl.toNat + (s.pair rp).toNat) % 65536 ∧
    (t.flags.carry = true ↔ 0xFFFF < s.hl.toNat + (s.pair rp).toNat) ∧
    t = { s with h := t.h, l := t.l, flags := { s.flags with carry := t.flags.carry } }

/-- R135: DAA, its two tests on the values before the instruction. The high test and the final AC and CY are the
spec's decisions D8 and D9. -/
def Obligations.DaaCorrectsByTheValuesBefore : Prop :=
  ∀ s : State, ∃ t, exec .daa s = .next t ∧ OnlyAF s t ∧ ResultFlags t.a t.flags ∧
    (t.flags.auxCarry = true ↔ 9 < s.a.toNat % 16) ∧
    (t.flags.carry = true ↔ 0x99 < s.a.toNat ∨ s.flags.carry = true) ∧
    t.a.toNat = (s.a.toNat +
      ((if 9 < s.a.toNat % 16 ∨ s.flags.auxCarry = true then 0x06 else 0) +
        (if 0x99 < s.a.toNat ∨ s.flags.carry = true then 0x60 else 0))) % 256

/-- R104, R110, R135: ACI and then DAA add two-digit decimal numbers and a carry: A holds the sum modulo 100 and CY
its carry. It follows from R102 and R135, which holds the spec's decisions D8 and D9. -/
def Obligations.AddThenDaaAddsDecimalNumbers : Prop :=
  ∀ (s : State) (x1 x0 y1 y0 : Nat), x1 < 10 → x0 < 10 → y1 < 10 → y0 < 10 → s.a = bcd x1 x0 →
    ∃ t, runInstrs [.aci (bcd y1 y0), .daa] s = .next t ∧
      t.a = bcd ((10 * x1 + x0 + (10 * y1 + y0) + s.flags.carry.toNat) / 10 % 10)
        ((10 * x1 + x0 + (10 * y1 + y0) + s.flags.carry.toNat) % 10) ∧
      (t.flags.carry = true ↔ 100 ≤ 10 * x1 + x0 + (10 * y1 + y0) + s.flags.carry.toNat)

/-! ## Logic and rotates -/

/-- R140, R142 to R149, R157, R158: AND sets AC, XOR and OR clear it, all clear CY, in every form. That XOR and OR
clear AC is the spec's decision D6. -/
def Obligations.LogicGroupWritesResultAndFlags : Prop :=
  ∀ s : State,
    (∀ r, ∃ t, exec (.anaR r) s = .next t ∧ t.a = s.a &&& s.reg r ∧ LogicResult t.a true t.flags ∧ OnlyAF s t) ∧
    (∃ t, exec .anaM s = .next t ∧ t.a = s.a &&& s.readByte s.hl ∧ LogicResult t.a true t.flags ∧ OnlyAF s t) ∧
    (∀ d8, ∃ t, exec (.ani d8) s = .next t ∧ t.a = s.a &&& d8 ∧ LogicResult t.a true t.flags ∧ OnlyAF s t) ∧
    (∀ r, ∃ t, exec (.xraR r) s = .next t ∧ t.a = s.a ^^^ s.reg r ∧ LogicResult t.a false t.flags ∧ OnlyAF s t) ∧
    (∃ t, exec .xraM s = .next t ∧ t.a = s.a ^^^ s.readByte s.hl ∧ LogicResult t.a false t.flags ∧ OnlyAF s t) ∧
    (∀ d8, ∃ t, exec (.xri d8) s = .next t ∧ t.a = s.a ^^^ d8 ∧ LogicResult t.a false t.flags ∧ OnlyAF s t) ∧
    (∀ r, ∃ t, exec (.oraR r) s = .next t ∧ t.a = s.a ||| s.reg r ∧ LogicResult t.a false t.flags ∧ OnlyAF s t) ∧
    (∃ t, exec .oraM s = .next t ∧ t.a = s.a ||| s.readByte s.hl ∧ LogicResult t.a false t.flags ∧ OnlyAF s t) ∧
    (∀ d8, ∃ t, exec (.ori d8) s = .next t ∧ t.a = s.a ||| d8 ∧ LogicResult t.a false t.flags ∧ OnlyAF s t)

/-- R150 to R153: where each bit of A goes; CY gets the bit shifted out; no other flag is written. -/
def Obligations.RotatesMoveEveryBit : Prop :=
  ∀ s : State,
    (∃ t, exec .rlc s = .next t ∧ t.a = s.a.rotateLeft 1 ∧ t.flags = { s.flags with carry := s.a.getLsbD 7 } ∧ OnlyAF s t) ∧
    (∃ t, exec .rrc s = .next t ∧ t.a = s.a.rotateRight 1 ∧ t.flags = { s.flags with carry := s.a.getLsbD 0 } ∧ OnlyAF s t) ∧
    (∃ t, exec .ral s = .next t ∧ (∀ j < 7, t.a.getLsbD (j + 1) = s.a.getLsbD j) ∧ t.a.getLsbD 0 = s.flags.carry ∧
      t.flags = { s.flags with carry := s.a.getLsbD 7 } ∧ OnlyAF s t) ∧
    (∃ t, exec .rar s = .next t ∧ (∀ j < 7, t.a.getLsbD j = s.a.getLsbD (j + 1)) ∧ t.a.getLsbD 7 = s.flags.carry ∧
      t.flags = { s.flags with carry := s.a.getLsbD 0 } ∧ OnlyAF s t)

/-- R154, R155, R156: CMA complements A and writes no flag, STC and CMC write CY alone. -/
def Obligations.ComplementAndCarrySpecials : Prop :=
  ∀ s : State,
    (∃ t, exec .cma s = .next t ∧ t.a.toNat = 255 - s.a.toNat ∧ t = { s with a := t.a }) ∧
    exec .stc s = .next { s with flags := { s.flags with carry := true } } ∧
    exec .cmc s = .next { s with flags := { s.flags with carry := !s.flags.carry } }

/-- R152, R153: A and CY form a 9-bit ring: nine RALs, or nine RARs, restore both; and a RAR undoes a RAL. -/
def Obligations.NineRotatesThroughCarryRestore : Prop :=
  ∀ s : State, runInstrs (List.replicate 9 .ral) s = .next s ∧ runInstrs (List.replicate 9 .rar) s = .next s ∧
    runInstrs [.ral, .rar] s = .next s

/-! ## Control transfer -/

/-- R160 to R170, R194: each jump goes to its target when its condition holds and to the next instruction otherwise. -/
def Obligations.JumpsGoToTheirTarget : Prop :=
  ∀ (s : State) (a16 : Word),
    GoesTo (.jmp a16) s a16 ∧ GoesTo .pchl s s.hl ∧
    GoesTo (.jnz a16) s (if s.flags.zero then s.pc else a16) ∧ GoesTo (.jz a16) s (if s.flags.zero then a16 else s.pc) ∧
    GoesTo (.jnc a16) s (if s.flags.carry then s.pc else a16) ∧ GoesTo (.jc a16) s (if s.flags.carry then a16 else s.pc) ∧
    GoesTo (.jpo a16) s (if s.flags.parity then s.pc else a16) ∧ GoesTo (.jpe a16) s (if s.flags.parity then a16 else s.pc) ∧
    GoesTo (.jp a16) s (if s.flags.sign then s.pc else a16) ∧ GoesTo (.jm a16) s (if s.flags.sign then a16 else s.pc)

/-- R171 to R180, R193: a call and a restart push PC and go to their target; an untaken call changes nothing. The
stack's layout is the spec's decision D2. -/
def Obligations.CallsPushTheReturnAddress : Prop :=
  ∀ s : State, Memory.wf s.mem = true →
    (∀ n : BitVec 3, PushesAndGoesTo (.rst n) s s.pc (BitVec.ofNat 16 (8 * n.toNat))) ∧
    ∀ a16 : Word,
      PushesAndGoesTo (.call a16) s s.pc a16 ∧
      (s.flags.zero = false → PushesAndGoesTo (.cnz a16) s s.pc a16 ∧ exec (.cz a16) s = .next s) ∧
      (s.flags.zero = true → PushesAndGoesTo (.cz a16) s s.pc a16 ∧ exec (.cnz a16) s = .next s) ∧
      (s.flags.carry = false → PushesAndGoesTo (.cnc a16) s s.pc a16 ∧ exec (.cc a16) s = .next s) ∧
      (s.flags.carry = true → PushesAndGoesTo (.cc a16) s s.pc a16 ∧ exec (.cnc a16) s = .next s) ∧
      (s.flags.parity = false → PushesAndGoesTo (.cpo a16) s s.pc a16 ∧ exec (.cpe a16) s = .next s) ∧
      (s.flags.parity = true → PushesAndGoesTo (.cpe a16) s s.pc a16 ∧ exec (.cpo a16) s = .next s) ∧
      (s.flags.sign = false → PushesAndGoesTo (.cp a16) s s.pc a16 ∧ exec (.cm a16) s = .next s) ∧
      (s.flags.sign = true → PushesAndGoesTo (.cm a16) s s.pc a16 ∧ exec (.cp a16) s = .next s)

/-- R181 to R190: a return pops PC; an untaken return changes nothing. The stack's layout is the spec's decision D2. -/
def Obligations.ReturnsPopTheProgramCounter : Prop :=
  ∀ s : State,
    Returns .ret s ∧
    (s.flags.zero = false → Returns .rnz s ∧ exec .rz s = .next s) ∧
    (s.flags.zero = true → Returns .rz s ∧ exec .rnz s = .next s) ∧
    (s.flags.carry = false → Returns .rnc s ∧ exec .rc s = .next s) ∧
    (s.flags.carry = true → Returns .rc s ∧ exec .rnc s = .next s) ∧
    (s.flags.parity = false → Returns .rpo s ∧ exec .rpe s = .next s) ∧
    (s.flags.parity = true → Returns .rpe s ∧ exec .rpo s = .next s) ∧
    (s.flags.sign = false → Returns .rp s ∧ exec .rm s = .next s) ∧
    (s.flags.sign = true → Returns .rm s ∧ exec .rp s = .next s)

/-- R171, R181, R193: a RET right after a CALL or an RST resumes after it with SP as before, the bytes pushed aside.
The stack's layout is the spec's decision D2. -/
def Obligations.ReturnResumesAfterTheCall : Prop :=
  ∀ (s : State), Memory.wf s.mem = true →
    (∀ a16, ∃ t, runInstrs [.call a16, .ret] s = .next t ∧ SameMemoryBut [s.sp - 1#16, s.sp - 2#16] s t ∧
      t = { s with mem := t.mem }) ∧
    (∀ n, ∃ t, runInstrs [.rst n, .ret] s = .next t ∧ SameMemoryBut [s.sp - 1#16, s.sp - 2#16] s t ∧
      t = { s with mem := t.mem })

/-! ## Stack, input and output, machine control -/

/-- R200, R201, R27: a push stores the pair, or A above the packed flags, and changes no register but SP. The
stack's layout and bits 5 and 3 of the flag byte are the spec's decisions D2 and D4. -/
def Obligations.PushesStoreHighByteAbove : Prop :=
  ∀ s : State, Memory.wf s.mem = true →
    (∀ rp, PushesAndGoesTo (.push rp) s (s.stackPair rp) s.pc) ∧
    (∃ t, exec .pushPsw s = .next t ∧ t.readByte (s.sp - 1#16) = s.a ∧
      (t.readByte (s.sp - 2#16)).toNat = s.flags.sign.toNat * 128 + s.flags.zero.toNat * 64 + s.flags.auxCarry.toNat * 16 +
        s.flags.parity.toNat * 4 + 2 + s.flags.carry.toNat ∧
      SameMemoryBut [s.sp - 1#16, s.sp - 2#16] s t ∧ t = { s with mem := t.mem, sp := s.sp - 2#16 })

/-- R202, R203, R28: a pop loads the pair from the stack; POP PSW loads A and the flags and forces AC to 1. The
stack's layout and the bits dropped are the spec's decisions D2 and D4. -/
def Obligations.PopsLoadAndPswForcesAuxCarry : Prop :=
  ∀ s : State,
    (∀ rp, ∃ t, exec (.pop rp) s = .next t ∧ (t.stackPair rp).toNat = wordAt s s.sp ∧
      (∀ rp', rp' ≠ rp → t.stackPair rp' = s.stackPair rp') ∧ t.sp = s.sp + 2#16 ∧ t.a = s.a ∧
      t = { s with b := t.b, c := t.c, d := t.d, e := t.e, h := t.h, l := t.l, sp := t.sp }) ∧
    (∃ t, exec .popPsw s = .next t ∧ t.a = s.readByte (s.sp + 1#16) ∧
      t.flags = { sign := (s.readByte s.sp).getLsbD 7, zero := (s.readByte s.sp).getLsbD 6, auxCarry := true,
                  parity := (s.readByte s.sp).getLsbD 2, carry := (s.readByte s.sp).getLsbD 0 } ∧
      t = { s with a := t.a, flags := t.flags, sp := s.sp + 2#16 })

/-- R203, R27: PUSH PSW and then POP PSW restores A, S, Z, P, CY and sets AC; the packed byte always has bit 1 set
and bits 5 and 3 clear, and unpacks to the flags. The stack's layout and bits 5 and 3 of the flag byte are the spec's
decisions D2 and D4. -/
def Obligations.PushPopPswRestoresAllButAuxCarry : Prop :=
  (∀ s : State, Memory.wf s.mem = true → ∃ t, runInstrs [.pushPsw, .popPsw] s = .next t ∧
    SameMemoryBut [s.sp - 1#16, s.sp - 2#16] s t ∧
    t = { s with mem := t.mem, flags := { s.flags with auxCarry := true } }) ∧
  ∀ f : Flags, flagByte f &&& 0x2A#8 = 0x02#8 ∧ flagsOfByte (flagByte f) = f

/-- R204: XTHL exchanges HL with the word on top of the stack; SP stays, addresses wrap. The byte order is the
spec's decision D1. -/
def Obligations.XthlExchangesTheTopOfStack : Prop :=
  ∀ s : State, Memory.wf s.mem = true →
    ∃ t, exec .xthl s = .next t ∧ t.l = s.readByte s.sp ∧ t.h = s.readByte (s.sp + 1#16) ∧
      t.readByte s.sp = s.l ∧ t.readByte (s.sp + 1#16) = s.h ∧ SameMemoryBut [s.sp, s.sp + 1#16] s t ∧
      t = { s with mem := t.mem, h := t.h, l := t.l }

/-- R208, R209: IN loads A with the byte the environment answers, whatever it is, and OUT records its event; nothing
else changes but the environment's inputs. The queue of ready inputs and the free value are the model's own (log 5),
after the spec's decision D12; the width of a port number is its decision D11. -/
def Obligations.InDrawsAndOutEmits : Prop :=
  ∀ (s : State) (p : Byte),
    (∃ t, exec (.inp p) s = .next t ∧ t = { s with a := t.a, inputs := t.inputs } ∧
      (∀ v rest, s.inputs.portIn = v :: rest → t.a = v ∧ t.inputs.portIn = rest) ∧
      (s.inputs.portIn = [] → t.a = Config.freePortIn p s.inputs.portDraws ∧ t.inputs.portIn = []) ∧
      t.inputs.portDraws = s.inputs.portDraws + 1) ∧
    exec (.outp p) s = .next { s with trace := s.trace ++ [.outPort p s.a] }

/-- R210 to R214: EI, DI, HLT, NOP and the undefined opcodes. That EI and DI act at once is the spec's decision D13,
and which opcodes are undefined its decision D15. -/
def Obligations.ControlInstructionsDoOneThing : Prop :=
  ∀ s : State,
    exec .ei s = .next { s with ie := true } ∧ exec .di s = .next { s with ie := false } ∧
    exec .hlt s = .next { s with halted := true, trace := s.trace ++ [.haltEvent] } ∧
    exec .nop s = .next s ∧ ∀ op, exec (.undef op) s = .next s

/-! ## Interrupt injection -/

/-- R282, D16: with IE clear nothing happens; else IE is cleared and the opcode's action runs, its operand bytes
being fetched at PC, whether or not the core is halted. Where operand bytes come from is the spec's decision D16. -/
def Obligations.InterruptRunsTheOpcodeOnlyWhenEnabled : Prop :=
  ∀ (s : State) (op : Byte),
    (s.ie = false → interrupt op s = .next s) ∧
    (s.ie = true → ∀ i rest, decode [op, s.readByte s.pc, s.readByte (s.pc + 1#16)] = .ok (i, rest) →
      interrupt op s = exec i { s with ie := false, pc := s.pc + BitVec.ofNat 16 (i.length - 1) })

/-- R286, R284, R287, R193: an accepted RST saves the PC alone, goes to 8 n, clears IE and leaves Halted; a RET then
resumes. The stack's layout is the spec's decision D2; that Halted stays is D17. -/
def Obligations.InterruptRestartSavesOnlyPc : Prop :=
  ∀ (s : State) (n : BitVec 3), s.ie = true → Memory.wf s.mem = true →
    ∃ t, interrupt (BitVec.ofNat 8 (0xC7 + 8 * n.toNat)) s = .next t ∧
      (t.readByte (s.sp - 1#16)).toNat = s.pc.toNat / 256 ∧ (t.readByte (s.sp - 2#16)).toNat = s.pc.toNat % 256 ∧
      SameMemoryBut [s.sp - 1#16, s.sp - 2#16] s t ∧
      t = { s with mem := t.mem, sp := s.sp - 2#16, pc := BitVec.ofNat 16 (8 * n.toNat), ie := false } ∧
      exec .ret t = .next { t with pc := s.pc, sp := s.sp }

/-! ## The host's operations -/

/-- R62, R15: `load` then `dump` gives the bytes back whenever they fit; nothing else of memory changes; a load that
does not fit is refused. The name of the refusal is the model's own (log 10). -/
def Obligations.LoadThenDumpGivesTheBytes : Prop :=
  ∀ (s : State) (addr : Word) (bytes : List Byte),
    (addr.toNat + bytes.length ≤ 65536 → Memory.wf s.mem = true →
      ∃ t, transition (.hostLoad addr bytes) s = .next t ∧ hostDump addr bytes.length t = bytes ∧
        (∀ k : Word, (k.toNat < addr.toNat ∨ addr.toNat + bytes.length ≤ k.toNat) → t.readByte k = s.readByte k) ∧
        t = { s with mem := t.mem }) ∧
    (65536 < addr.toNat + bytes.length → transition (.hostLoad addr bytes) s = .refused .hostLoadOutOfBounds)

/-- R34, R25, R28, R50, R62: the accessors write what they name, the packed flags without forcing AC; `write` writes one
byte; `clear` zeroes every byte. The writable accessors and the packed byte are the spec's decisions D4 and D36. -/
def Obligations.HostWritesWhatItNames : Prop :=
  ∀ s : State,
    (∀ r v, ∃ t, transition (.hostSet (.reg r v)) s = .next t ∧ RegBecomes s t r v ∧ OnlyRegs s t) ∧
    (∀ v, transition (.hostSet (.sp v)) s = .next { s with sp := v }) ∧
    (∀ v, transition (.hostSet (.pc v)) s = .next { s with pc := v }) ∧
    (∀ v : Byte, transition (.hostSet (.flags v)) s = .next { s with flags :=
      { sign := v.getLsbD 7, zero := v.getLsbD 6, auxCarry := v.getLsbD 4, parity := v.getLsbD 2, carry := v.getLsbD 0 } }) ∧
    (∀ addr v, Memory.wf s.mem = true → ∃ t, transition (.hostWrite addr v) s = .next t ∧ t.readByte addr = v ∧
      SameMemoryBut [addr] s t ∧ t = { s with mem := t.mem }) ∧
    (∃ t, transition .hostClear s = .next t ∧ (∀ k, t.readByte k = 0#8) ∧ t = { s with mem := t.mem })

/-! ## The dispatcher -/

/-- R277: at the trampoline the dispatcher runs instead of a step: A and HL get the result, PC is popped, and of the
core nothing else changes. The calling convention is the spec's decisions D20, D21 and D22, the stack's layout D2; the
schedule is the model's own (log 4). -/
def Obligations.SyscallDeliversTheResult : Prop :=
  ∀ s : State, s.nextTransition = .run → s.halted = false → s.cfg.driver = true → s.pc = s.cfg.syscallAddr →
    ∃ t u res, step s = .next t ∧
      execute s.c.toNat s.bc s.de s.hl { s with schedule := s.schedule.tail } = (res, u) ∧
      t.a.toNat = res.toNat % 256 ∧ t.hl = res ∧ t.pc.toNat = wordAt u s.sp ∧ t.sp = s.sp + 2#16 ∧
      t.b = s.b ∧ t.c = s.c ∧ t.d = s.d ∧ t.e = s.e ∧ t.flags = s.flags ∧ t.halted = s.halted ∧ t.ie = s.ie ∧
      t.total = s.total ∧ t.mem = u.mem ∧ t.disp = u.disp ∧ t.trace = u.trace ∧ t.inputs = u.inputs

/-- R267: every function number but the sixteen answers 0xFFFF and changes nothing. Which numbers are unhandled is
the spec's decision D23. -/
def Obligations.UnhandledFunctionsAnswerNotFound : Prop :=
  ∀ (fn : Nat) (bc de hl : Word) (s : State),
    fn ∉ [0, 1, 2, 9, 10, 11, 13, 14, 15, 17, 19, 20, 25, 26, 32, 33] → execute fn bc de hl s = (0xFFFF#16, s)

/-- R250, R256, R257, R263 to R266: the functions that read and write the dispatcher's own registers. The values are
the spec's decisions D24, D25 and D39. -/
def Obligations.DispatcherRegisterFunctions : Prop :=
  ∀ (bc de hl : Word) (s : State),
    execute 0 bc de hl s = (0#16, { s with disp := { s.disp with curDrive := 0, dma := s.cfg.defaultDma, user := 0#5 } }) ∧
    execute 13 bc de hl s = (0#16, { s with disp := { s.disp with curDrive := 0, dma := s.cfg.defaultDma } }) ∧
    (de.toNat % 256 < s.cfg.numDrives →
      execute 14 bc de hl s = (0#16, { s with disp := { s.disp with curDrive := de.toNat % 256 } })) ∧
    (s.cfg.numDrives ≤ de.toNat % 256 → execute 14 bc de hl s = (0xFFFF#16, s)) ∧
    execute 25 bc de hl s = (BitVec.ofNat 16 s.disp.curDrive, s) ∧
    execute 26 bc de hl s = (0#16, { s with disp := { s.disp with dma := de } }) ∧
    execute 32 bc de hl s = (BitVec.ofNat 16 s.disp.user.toNat, s) ∧
    execute 33 bc de hl s = (0#16, { s with disp := { s.disp with user := BitVec.ofNat 5 (de.toNat % 32) } })

/-- R251, R252, R255: the one-character console functions; function 1 answers the host's character, whatever it is.
The queue of ready inputs and the free value are the model's own (log 5), after the spec's decisions D26 and D27. -/
def Obligations.ConsoleCharacterFunctions : Prop :=
  ∀ (bc de hl : Word) (s : State),
    (∃ (u : State) (c : Byte), execute 1 bc de hl s = (BitVec.ofNat 16 c.toNat, u) ∧ u = { s with inputs := u.inputs } ∧
      (∀ v rest, s.inputs.conIn = v :: rest → c = v ∧ u.inputs.conIn = rest) ∧
      (s.inputs.conIn = [] → c = Config.freeConIn s.inputs.conDraws) ∧ u.inputs.conDraws = s.inputs.conDraws + 1) ∧
    execute 2 bc de hl s = (0#16, { s with trace := s.trace ++ [.conOut (BitVec.ofNat 8 de.toNat)] }) ∧
    execute 11 bc de hl s = (s.cfg.consoleReady, s)

/-- R253: function 9 emits the bytes before the first `$` as one event; with no `$` in memory it stops after 65536.
The bound and the single event are the spec's decision D34, the wrap of addresses D38. -/
def Obligations.PrintStringStopsAtTheDollar : Prop :=
  ∀ (bc de hl : Word) (s : State) (str : List Byte),
    (∀ j (h : j < str.length), s.readByte (de + BitVec.ofNat 16 j) = str[j] ∧ str[j] ≠ 0x24#8) →
    (str.length < 65536 ∧ s.readByte (de + BitVec.ofNat 16 str.length) = 0x24#8 ∨ str.length = 65536) →
    execute 9 bc de hl s = (0#16, { s with trace := s.trace ++ [.conOutString str] })

/-- R254: function 10 stores the text of the supplied line, clamped, with its length, and echoes it and CR LF. The
details are the spec's decision D28, the wrap of addresses D38; how a line is supplied is the model's own (log 5). -/
def Obligations.ReadLineStoresAndEchoesTheText : Prop :=
  ∀ (bc de hl : Word) (s : State) (text rest : List Byte),
    Memory.wf s.mem = true → s.lineValue = text ++ rest → (∀ v ∈ text, v ≠ 0x0D#8 ∧ v ≠ 0x0A#8) →
    (∀ v, rest.head? = some v → v = 0x0D#8 ∨ v = 0x0A#8) →
    ∃ u, execute 10 bc de hl s = (0#16, u) ∧
      (u.readByte (de + 1#16)).toNat = min text.length (s.readByte de).toNat ∧
      (∀ j (h : j < text.length), j < (s.readByte de).toNat → u.readByte (de + 2#16 + BitVec.ofNat 16 j) = text[j]) ∧
      (∀ k : Word, k ≠ de + 1#16 → (∀ j < min text.length (s.readByte de).toNat, k ≠ de + 2#16 + BitVec.ofNat 16 j) →
        u.readByte k = s.readByte k) ∧
      u.trace = s.trace ++ (text.take (s.readByte de).toNat).map Event.conOut ++ [.conOut 0x0D#8, .conOut 0x0A#8] ∧
      u = { s with mem := u.mem, trace := u.trace, inputs := u.inputs } ∧
      u.inputs.lineIn = s.inputs.lineIn.tail ∧ u.inputs.lineDraws = s.inputs.lineDraws + 1

/-- R245, R246, R247, R65: the key of a control block is the 11 bytes from +1, a lower-case ASCII letter folded to upper
case and every other byte kept; a pattern matches a key iff it matches in the 8 name bytes and in the 3 extension bytes;
and a field matches iff every byte before the pattern's first `*` is `?` or the same byte. The form of a key is the
spec's decision D29, the reading of `*` per field D31, the wrap of addresses D38. -/
def Obligations.FieldMatchReadsWildcards : Prop :=
  (∀ (s : State) (f : Word), (s.fcbKey f).length = 11 ∧
    ∀ (i : Nat) (v : Byte), i < 11 → v = s.readByte (f + 1#16 + BitVec.ofNat 16 i) →
      (s.fcbKey f)[i]? = some (if 0x61 ≤ v.toNat ∧ v.toNat ≤ 0x7A then BitVec.ofNat 8 (v.toNat - 0x20) else v)) ∧
  (∀ patName name patExt ext : List Byte,
    patName.length = 8 → name.length = 8 → patExt.length = 3 → ext.length = 3 →
    (keyMatch (patName ++ patExt) (name ++ ext) = true ↔ fieldMatch patName name = true ∧ fieldMatch patExt ext = true)) ∧
  ∀ p k : List Byte, p.length = k.length →
    (fieldMatch p k = true ↔
      ∀ i (hp : i < p.length) (hk : i < k.length), (∀ j (hj : j < p.length), j ≤ i → p[j] ≠ 0x2A#8) →
        p[i] = 0x3F#8 ∨ p[i] = k[i])

/-- R258, R248: function 15 on a file of the current drive writes its record count and zeroes the cursor; on a key
the drive has not it answers 0xFFFF and changes nothing. The report is the spec's decision D30, the key D29, the wrap
of addresses D38; the backend's form is the model's own (log 6). -/
def Obligations.OpenReportsTheRecordCount : Prop :=
  ∀ (bc de hl : Word) (s : State), Memory.wf s.mem = true → filesWf s.cfg.numDrives s.disp.files = true →
    (∀ x ∈ s.disp.files, x.drive = s.disp.curDrive → x.key = s.fcbKey de →
      ∃ u, execute 15 bc de hl s = (0#16, u) ∧
        (u.readByte (de + 0x0F#16)).toNat = min 255 ((x.blob.length + 127) / 128) ∧ u.readByte (de + 0x20#16) = 0#8 ∧
        SameMemoryBut [de + 0x0F#16, de + 0x20#16] s u ∧ u = { s with mem := u.mem }) ∧
    ((∀ x ∈ s.disp.files, x.drive = s.disp.curDrive → x.key ≠ s.fcbKey de) → execute 15 bc de hl s = (0xFFFF#16, s))

/-- R259, R262: function 17 writes the entry of the first matching key in ascending order at `Dma`, the order of keys
being byte by byte from the first. The entry and the order are the spec's decision D31, the key D29, the wrap of
addresses D38; the backend's form is the model's own (log 6). -/
def Obligations.SearchWritesTheFirstMatch : Prop :=
  (∀ x y : List Byte, x.length = y.length →
    (keyLt x y = true ↔ ∃ (i : Nat) (hx : i < x.length) (hy : i < y.length), x[i].toNat < y[i].toNat ∧ x.take i = y.take i)) ∧
  ∀ (bc de hl : Word) (s : State), Memory.wf s.mem = true → filesWf s.cfg.numDrives s.disp.files = true →
    (∀ x ∈ s.disp.files, x.drive = s.disp.curDrive → keyMatch (s.fcbKey de) x.key = true →
      (∀ y ∈ s.disp.files, y.drive = s.disp.curDrive → keyMatch (s.fcbKey de) y.key = true → keyLt y.key x.key = false) →
      ∃ u, execute 17 bc de hl s = (0#16, u) ∧ u.readByte s.disp.dma = 0#8 ∧
        (∀ j (h : j < x.key.length), u.readByte (s.disp.dma + 1#16 + BitVec.ofNat 16 j) = x.key[j]) ∧
        (∀ j, 12 ≤ j → j < 32 → u.readByte (s.disp.dma + BitVec.ofNat 16 j) = 0#8) ∧
        (∀ k : Word, (∀ j < 32, k ≠ s.disp.dma + BitVec.ofNat 16 j) → u.readByte k = s.readByte k) ∧
        u = { s with mem := u.mem }) ∧
    ((∀ x ∈ s.disp.files, x.drive = s.disp.curDrive → keyMatch (s.fcbKey de) x.key = false) →
      execute 17 bc de hl s = (0xFFFF#16, s))

/-- R260: function 19 removes the exact key from the current drive and no other file; memory is unchanged. The exact
key is the spec's decisions D29 and D32. -/
def Obligations.DeleteRemovesOneFile : Prop :=
  ∀ (bc de hl : Word) (s : State),
    ((∃ x ∈ s.disp.files, x.drive = s.disp.curDrive ∧ x.key = s.fcbKey de) →
      ∃ u, execute 19 bc de hl s = (0#16, u) ∧
        (∀ x, x ∈ u.disp.files ↔ x ∈ s.disp.files ∧ ¬ (x.drive = s.disp.curDrive ∧ x.key = s.fcbKey de)) ∧
        getFile u.disp.files s.disp.curDrive (s.fcbKey de) = none ∧
        (∀ drive key, drive ≠ s.disp.curDrive ∨ key ≠ s.fcbKey de →
          getFile u.disp.files drive key = getFile s.disp.files drive key) ∧
        u = { s with disp := { s.disp with files := u.disp.files } }) ∧
    ((∀ x ∈ s.disp.files, x.drive = s.disp.curDrive → x.key ≠ s.fcbKey de) → execute 19 bc de hl s = (0xFFFF#16, s))

/-- R261: function 20 copies the record at the cursor to `Dma`, filled up with 0x1A, and moves the cursor, whose
write comes last; past the end it answers 1, and for a file the drive has not 0xFFFF, and changes nothing. The
details are the spec's decision D33, the key D29, the wrap of addresses D38; the backend's form is the model's own
(log 6). -/
def Obligations.SequentialReadCopiesOneRecord : Prop :=
  ∀ (bc de hl : Word) (s : State), Memory.wf s.mem = true → filesWf s.cfg.numDrives s.disp.files = true →
    (∀ x ∈ s.disp.files, x.drive = s.disp.curDrive → x.key = s.fcbKey de →
      ∀ off, off = (s.readByte (de + 0x20#16)).toNat * 128 →
        (x.blob.length ≤ off → execute 20 bc de hl s = (1#16, s)) ∧
        (off < x.blob.length → ∃ u, execute 20 bc de hl s = (0#16, u) ∧
          (u.readByte (de + 0x20#16)).toNat = ((s.readByte (de + 0x20#16)).toNat + 1) % 256 ∧
          (∀ j < 128, s.disp.dma + BitVec.ofNat 16 j ≠ de + 0x20#16 →
            u.readByte (s.disp.dma + BitVec.ofNat 16 j) = x.blob.getD (off + j) 0x1A#8) ∧
          (∀ k : Word, k ≠ de + 0x20#16 → (∀ j < 128, k ≠ s.disp.dma + BitVec.ofNat 16 j) →
            u.readByte k = s.readByte k) ∧
          u = { s with mem := u.mem })) ∧
    ((∀ x ∈ s.disp.files, x.drive = s.disp.curDrive → x.key ≠ s.fcbKey de) → execute 20 bc de hl s = (0xFFFF#16, s))
end

