-- ==== Sys2Proof/Laws/Bits.lean ====
section
/-! SUPPORT. Halves of words and the pair views: a view written is the view read. -/

namespace Sys2Proof.Machine

@[simp] theorem hiByte_toNat (v : Word) : (hiByte v).toNat = v.toNat / 256 := by
  have := v.isLt
  simp [hiByte, BitVec.extractLsb'_toNat, Nat.shiftRight_eq_div_pow]
  omega

@[simp] theorem loByte_toNat (v : Word) : (loByte v).toNat = v.toNat % 256 := by
  simp [loByte, BitVec.extractLsb'_toNat]

@[simp] theorem joinBytes_toNat (hi lo : Byte) : (joinBytes hi lo).toNat = hi.toNat * 256 + lo.toNat := by
  rw [joinBytes, BitVec.toNat_append, Nat.shiftLeft_eq, Nat.mul_comm,
    ← Nat.two_pow_add_eq_or_of_lt lo.isLt]

@[simp] theorem hiByte_joinBytes (hi lo : Byte) : hiByte (joinBytes hi lo) = hi := by
  apply BitVec.eq_of_toNat_eq
  have := lo.isLt
  simp
  omega

@[simp] theorem loByte_joinBytes (hi lo : Byte) : loByte (joinBytes hi lo) = lo := by
  apply BitVec.eq_of_toNat_eq
  have := lo.isLt
  simp
  omega

@[simp] theorem joinBytes_hiByte_loByte (v : Word) : joinBytes (hiByte v) (loByte v) = v := by
  apply BitVec.eq_of_toNat_eq
  simp
  omega

/-! ## Registers -/

@[simp] theorem State.reg_setReg_self (s : State) (r : Reg) (v : Byte) : (s.setReg r v).reg r = v := by
  cases r <;> rfl

theorem State.reg_setReg_ne (s : State) {r r' : Reg} (v : Byte) (h : r' ≠ r) : (s.setReg r v).reg r' = s.reg r' := by
  cases r <;> cases r' <;> first | exact absurd rfl h | rfl

/-- A register write changes the general registers alone. -/
theorem State.setReg_eq (s : State) (r : Reg) (v : Byte) :
    s.setReg r v = { s with
      a := (s.setReg r v).a, b := (s.setReg r v).b, c := (s.setReg r v).c, d := (s.setReg r v).d
      e := (s.setReg r v).e, h := (s.setReg r v).h, l := (s.setReg r v).l } := by
  cases r <;> rfl

/-! ## Pairs -/

@[simp] theorem State.bc_setBC (s : State) (v : Word) : (s.setBC v).bc = v := joinBytes_hiByte_loByte v

@[simp] theorem State.de_setDE (s : State) (v : Word) : (s.setDE v).de = v := joinBytes_hiByte_loByte v

@[simp] theorem State.hl_setHL (s : State) (v : Word) : (s.setHL v).hl = v := joinBytes_hiByte_loByte v

@[simp] theorem State.pair_setPair_self (s : State) (p : Pair) (v : Word) : (s.setPair p v).pair p = v := by
  cases p <;> simp [State.setPair, State.pair]

theorem State.pair_setPair_ne (s : State) {p p' : Pair} (v : Word) (h : p' ≠ p) :
    (s.setPair p v).pair p' = s.pair p' := by
  cases p <;> cases p' <;> first | exact absurd rfl h | rfl

/-- A pair write changes the pairs' registers and SP alone. -/
theorem State.setPair_eq (s : State) (p : Pair) (v : Word) :
    s.setPair p v = { s with
      b := (s.setPair p v).b, c := (s.setPair p v).c, d := (s.setPair p v).d, e := (s.setPair p v).e
      h := (s.setPair p v).h, l := (s.setPair p v).l, sp := (s.setPair p v).sp } := by
  cases p <;> rfl

@[simp] theorem State.stackPair_setStackPair_self (s : State) (p : StackPair) (v : Word) :
    (s.setStackPair p v).stackPair p = v := by
  cases p <;> simp [State.setStackPair, State.stackPair]

theorem State.stackPair_setStackPair_ne (s : State) {p p' : StackPair} (v : Word) (h : p' ≠ p) :
    (s.setStackPair p v).stackPair p' = s.stackPair p' := by
  cases p <;> cases p' <;> first | exact absurd rfl h | rfl

end Sys2Proof.Machine
end

