-- ==== Sys2Proof/Laws/Decoding.lean ====
section
/-! SUPPORT. The codes of the encoding tables and the fields they decode from. -/

namespace Sys2Proof

@[simp] theorem regOfCode_code (r : Reg) : regOfCode r.code = some r := by cases r <;> rfl

@[simp] theorem pairOfCode_code (p : Pair) : pairOfCode p.code = p := by cases p <;> rfl

@[simp] theorem stackPairOfCode_code (p : StackPair) : stackPairOfCode p.code = some p := by cases p <;> rfl

@[simp] theorem opGroup_octalByte (xx : BitVec 2) (ddd sss : BitVec 3) : opGroup (octalByte xx ddd sss) = xx := by
  revert xx ddd sss; decide

@[simp] theorem opMid_octalByte (xx : BitVec 2) (ddd sss : BitVec 3) : opMid (octalByte xx ddd sss) = ddd := by
  revert xx ddd sss; decide

@[simp] theorem opLow_octalByte (xx : BitVec 2) (ddd sss : BitVec 3) : opLow (octalByte xx ddd sss) = sss := by
  revert xx ddd sss; decide

@[simp] theorem opGroup_pairByte (xx pp : BitVec 2) (q : BitVec 1) (sss : BitVec 3) :
    opGroup (pairByte xx pp q sss) = xx := by
  revert xx pp q sss; decide

@[simp] theorem opPair_pairByte (xx pp : BitVec 2) (q : BitVec 1) (sss : BitVec 3) :
    opPair (pairByte xx pp q sss) = pp := by
  revert xx pp q sss; decide

@[simp] theorem opLow_pairByte (xx pp : BitVec 2) (q : BitVec 1) (sss : BitVec 3) :
    opLow (pairByte xx pp q sss) = sss := by
  revert xx pp q sss; decide

/-- A property of every opcode byte is a property of each of its field values `xx ddd sss` (R72). -/
theorem byte_of_fields {P : Byte → Prop} (h : ∀ xx ddd sss, P (octalByte xx ddd sss)) (op : Byte) : P op := by
  have he : ∀ op : Byte, octalByte (opGroup op) (opMid op) (opLow op) = op := by decide
  exact he op ▸ h _ _ _

end Sys2Proof
end

