-- ==== Sys2Proof/Laws/State.lean ====
section
/-! SUPPORT. One lemma per field per named update of `State`: what the update leaves in the field. -/

namespace Sys2Proof.Machine


/-! ## `State.writeByte` -/

@[simp] theorem State.writeByte_a (s : State) (addr : Word) (v : Byte) : (s.writeByte addr v).a = s.a := rfl
@[simp] theorem State.writeByte_b (s : State) (addr : Word) (v : Byte) : (s.writeByte addr v).b = s.b := rfl
@[simp] theorem State.writeByte_c (s : State) (addr : Word) (v : Byte) : (s.writeByte addr v).c = s.c := rfl
@[simp] theorem State.writeByte_d (s : State) (addr : Word) (v : Byte) : (s.writeByte addr v).d = s.d := rfl
@[simp] theorem State.writeByte_e (s : State) (addr : Word) (v : Byte) : (s.writeByte addr v).e = s.e := rfl
@[simp] theorem State.writeByte_h (s : State) (addr : Word) (v : Byte) : (s.writeByte addr v).h = s.h := rfl
@[simp] theorem State.writeByte_l (s : State) (addr : Word) (v : Byte) : (s.writeByte addr v).l = s.l := rfl
@[simp] theorem State.writeByte_sp (s : State) (addr : Word) (v : Byte) : (s.writeByte addr v).sp = s.sp := rfl
@[simp] theorem State.writeByte_pc (s : State) (addr : Word) (v : Byte) : (s.writeByte addr v).pc = s.pc := rfl
@[simp] theorem State.writeByte_flags (s : State) (addr : Word) (v : Byte) : (s.writeByte addr v).flags = s.flags := rfl
@[simp] theorem State.writeByte_halted (s : State) (addr : Word) (v : Byte) : (s.writeByte addr v).halted = s.halted := rfl
@[simp] theorem State.writeByte_ie (s : State) (addr : Word) (v : Byte) : (s.writeByte addr v).ie = s.ie := rfl
@[simp] theorem State.writeByte_mem (s : State) (addr : Word) (v : Byte) : (s.writeByte addr v).mem = Memory.write s.mem addr.toNat v := rfl
@[simp] theorem State.writeByte_disp (s : State) (addr : Word) (v : Byte) : (s.writeByte addr v).disp = s.disp := rfl
@[simp] theorem State.writeByte_trace (s : State) (addr : Word) (v : Byte) : (s.writeByte addr v).trace = s.trace := rfl
@[simp] theorem State.writeByte_total (s : State) (addr : Word) (v : Byte) : (s.writeByte addr v).total = s.total := rfl
@[simp] theorem State.writeByte_cfg (s : State) (addr : Word) (v : Byte) : (s.writeByte addr v).cfg = s.cfg := rfl
@[simp] theorem State.writeByte_inputs (s : State) (addr : Word) (v : Byte) : (s.writeByte addr v).inputs = s.inputs := rfl
@[simp] theorem State.writeByte_schedule (s : State) (addr : Word) (v : Byte) : (s.writeByte addr v).schedule = s.schedule := rfl

/-! ## `State.writeWord` -/

@[simp] theorem State.writeWord_a (s : State) (addr v : Word) : (s.writeWord addr v).a = s.a := rfl
@[simp] theorem State.writeWord_b (s : State) (addr v : Word) : (s.writeWord addr v).b = s.b := rfl
@[simp] theorem State.writeWord_c (s : State) (addr v : Word) : (s.writeWord addr v).c = s.c := rfl
@[simp] theorem State.writeWord_d (s : State) (addr v : Word) : (s.writeWord addr v).d = s.d := rfl
@[simp] theorem State.writeWord_e (s : State) (addr v : Word) : (s.writeWord addr v).e = s.e := rfl
@[simp] theorem State.writeWord_h (s : State) (addr v : Word) : (s.writeWord addr v).h = s.h := rfl
@[simp] theorem State.writeWord_l (s : State) (addr v : Word) : (s.writeWord addr v).l = s.l := rfl
@[simp] theorem State.writeWord_sp (s : State) (addr v : Word) : (s.writeWord addr v).sp = s.sp := rfl
@[simp] theorem State.writeWord_pc (s : State) (addr v : Word) : (s.writeWord addr v).pc = s.pc := rfl
@[simp] theorem State.writeWord_flags (s : State) (addr v : Word) : (s.writeWord addr v).flags = s.flags := rfl
@[simp] theorem State.writeWord_halted (s : State) (addr v : Word) : (s.writeWord addr v).halted = s.halted := rfl
@[simp] theorem State.writeWord_ie (s : State) (addr v : Word) : (s.writeWord addr v).ie = s.ie := rfl
@[simp] theorem State.writeWord_mem (s : State) (addr v : Word) : (s.writeWord addr v).mem = Memory.write (Memory.write s.mem addr.toNat (loByte v)) (addr + 1#16).toNat (hiByte v) := rfl
@[simp] theorem State.writeWord_disp (s : State) (addr v : Word) : (s.writeWord addr v).disp = s.disp := rfl
@[simp] theorem State.writeWord_trace (s : State) (addr v : Word) : (s.writeWord addr v).trace = s.trace := rfl
@[simp] theorem State.writeWord_total (s : State) (addr v : Word) : (s.writeWord addr v).total = s.total := rfl
@[simp] theorem State.writeWord_cfg (s : State) (addr v : Word) : (s.writeWord addr v).cfg = s.cfg := rfl
@[simp] theorem State.writeWord_inputs (s : State) (addr v : Word) : (s.writeWord addr v).inputs = s.inputs := rfl
@[simp] theorem State.writeWord_schedule (s : State) (addr v : Word) : (s.writeWord addr v).schedule = s.schedule := rfl

/-! ## `State.writeM` -/

@[simp] theorem State.writeM_a (s : State) (v : Byte) : (s.writeM v).a = s.a := rfl
@[simp] theorem State.writeM_b (s : State) (v : Byte) : (s.writeM v).b = s.b := rfl
@[simp] theorem State.writeM_c (s : State) (v : Byte) : (s.writeM v).c = s.c := rfl
@[simp] theorem State.writeM_d (s : State) (v : Byte) : (s.writeM v).d = s.d := rfl
@[simp] theorem State.writeM_e (s : State) (v : Byte) : (s.writeM v).e = s.e := rfl
@[simp] theorem State.writeM_h (s : State) (v : Byte) : (s.writeM v).h = s.h := rfl
@[simp] theorem State.writeM_l (s : State) (v : Byte) : (s.writeM v).l = s.l := rfl
@[simp] theorem State.writeM_sp (s : State) (v : Byte) : (s.writeM v).sp = s.sp := rfl
@[simp] theorem State.writeM_pc (s : State) (v : Byte) : (s.writeM v).pc = s.pc := rfl
@[simp] theorem State.writeM_flags (s : State) (v : Byte) : (s.writeM v).flags = s.flags := rfl
@[simp] theorem State.writeM_halted (s : State) (v : Byte) : (s.writeM v).halted = s.halted := rfl
@[simp] theorem State.writeM_ie (s : State) (v : Byte) : (s.writeM v).ie = s.ie := rfl
@[simp] theorem State.writeM_mem (s : State) (v : Byte) : (s.writeM v).mem = Memory.write s.mem s.hl.toNat v := rfl
@[simp] theorem State.writeM_disp (s : State) (v : Byte) : (s.writeM v).disp = s.disp := rfl
@[simp] theorem State.writeM_trace (s : State) (v : Byte) : (s.writeM v).trace = s.trace := rfl
@[simp] theorem State.writeM_total (s : State) (v : Byte) : (s.writeM v).total = s.total := rfl
@[simp] theorem State.writeM_cfg (s : State) (v : Byte) : (s.writeM v).cfg = s.cfg := rfl
@[simp] theorem State.writeM_inputs (s : State) (v : Byte) : (s.writeM v).inputs = s.inputs := rfl
@[simp] theorem State.writeM_schedule (s : State) (v : Byte) : (s.writeM v).schedule = s.schedule := rfl

/-! ## `State.push16` -/

@[simp] theorem State.push16_a (s : State) (v : Word) : (s.push16 v).a = s.a := rfl
@[simp] theorem State.push16_b (s : State) (v : Word) : (s.push16 v).b = s.b := rfl
@[simp] theorem State.push16_c (s : State) (v : Word) : (s.push16 v).c = s.c := rfl
@[simp] theorem State.push16_d (s : State) (v : Word) : (s.push16 v).d = s.d := rfl
@[simp] theorem State.push16_e (s : State) (v : Word) : (s.push16 v).e = s.e := rfl
@[simp] theorem State.push16_h (s : State) (v : Word) : (s.push16 v).h = s.h := rfl
@[simp] theorem State.push16_l (s : State) (v : Word) : (s.push16 v).l = s.l := rfl
@[simp] theorem State.push16_sp (s : State) (v : Word) : (s.push16 v).sp = s.sp - 2#16 := rfl
@[simp] theorem State.push16_pc (s : State) (v : Word) : (s.push16 v).pc = s.pc := rfl
@[simp] theorem State.push16_flags (s : State) (v : Word) : (s.push16 v).flags = s.flags := rfl
@[simp] theorem State.push16_halted (s : State) (v : Word) : (s.push16 v).halted = s.halted := rfl
@[simp] theorem State.push16_ie (s : State) (v : Word) : (s.push16 v).ie = s.ie := rfl
@[simp] theorem State.push16_mem (s : State) (v : Word) : (s.push16 v).mem = Memory.write (Memory.write s.mem (s.sp - 1#16).toNat (hiByte v)) (s.sp - 2#16).toNat (loByte v) := rfl
@[simp] theorem State.push16_disp (s : State) (v : Word) : (s.push16 v).disp = s.disp := rfl
@[simp] theorem State.push16_trace (s : State) (v : Word) : (s.push16 v).trace = s.trace := rfl
@[simp] theorem State.push16_total (s : State) (v : Word) : (s.push16 v).total = s.total := rfl
@[simp] theorem State.push16_cfg (s : State) (v : Word) : (s.push16 v).cfg = s.cfg := rfl
@[simp] theorem State.push16_inputs (s : State) (v : Word) : (s.push16 v).inputs = s.inputs := rfl
@[simp] theorem State.push16_schedule (s : State) (v : Word) : (s.push16 v).schedule = s.schedule := rfl

/-! ## `State.drop16` -/

@[simp] theorem State.drop16_a (s : State) : (s.drop16).a = s.a := rfl
@[simp] theorem State.drop16_b (s : State) : (s.drop16).b = s.b := rfl
@[simp] theorem State.drop16_c (s : State) : (s.drop16).c = s.c := rfl
@[simp] theorem State.drop16_d (s : State) : (s.drop16).d = s.d := rfl
@[simp] theorem State.drop16_e (s : State) : (s.drop16).e = s.e := rfl
@[simp] theorem State.drop16_h (s : State) : (s.drop16).h = s.h := rfl
@[simp] theorem State.drop16_l (s : State) : (s.drop16).l = s.l := rfl
@[simp] theorem State.drop16_sp (s : State) : (s.drop16).sp = s.sp + 2#16 := rfl
@[simp] theorem State.drop16_pc (s : State) : (s.drop16).pc = s.pc := rfl
@[simp] theorem State.drop16_flags (s : State) : (s.drop16).flags = s.flags := rfl
@[simp] theorem State.drop16_halted (s : State) : (s.drop16).halted = s.halted := rfl
@[simp] theorem State.drop16_ie (s : State) : (s.drop16).ie = s.ie := rfl
@[simp] theorem State.drop16_mem (s : State) : (s.drop16).mem = s.mem := rfl
@[simp] theorem State.drop16_disp (s : State) : (s.drop16).disp = s.disp := rfl
@[simp] theorem State.drop16_trace (s : State) : (s.drop16).trace = s.trace := rfl
@[simp] theorem State.drop16_total (s : State) : (s.drop16).total = s.total := rfl
@[simp] theorem State.drop16_cfg (s : State) : (s.drop16).cfg = s.cfg := rfl
@[simp] theorem State.drop16_inputs (s : State) : (s.drop16).inputs = s.inputs := rfl
@[simp] theorem State.drop16_schedule (s : State) : (s.drop16).schedule = s.schedule := rfl

/-! ## `State.emit` -/

@[simp] theorem State.emit_a (s : State) (ev : Event) : (s.emit ev).a = s.a := rfl
@[simp] theorem State.emit_b (s : State) (ev : Event) : (s.emit ev).b = s.b := rfl
@[simp] theorem State.emit_c (s : State) (ev : Event) : (s.emit ev).c = s.c := rfl
@[simp] theorem State.emit_d (s : State) (ev : Event) : (s.emit ev).d = s.d := rfl
@[simp] theorem State.emit_e (s : State) (ev : Event) : (s.emit ev).e = s.e := rfl
@[simp] theorem State.emit_h (s : State) (ev : Event) : (s.emit ev).h = s.h := rfl
@[simp] theorem State.emit_l (s : State) (ev : Event) : (s.emit ev).l = s.l := rfl
@[simp] theorem State.emit_sp (s : State) (ev : Event) : (s.emit ev).sp = s.sp := rfl
@[simp] theorem State.emit_pc (s : State) (ev : Event) : (s.emit ev).pc = s.pc := rfl
@[simp] theorem State.emit_flags (s : State) (ev : Event) : (s.emit ev).flags = s.flags := rfl
@[simp] theorem State.emit_halted (s : State) (ev : Event) : (s.emit ev).halted = s.halted := rfl
@[simp] theorem State.emit_ie (s : State) (ev : Event) : (s.emit ev).ie = s.ie := rfl
@[simp] theorem State.emit_mem (s : State) (ev : Event) : (s.emit ev).mem = s.mem := rfl
@[simp] theorem State.emit_disp (s : State) (ev : Event) : (s.emit ev).disp = s.disp := rfl
@[simp] theorem State.emit_trace (s : State) (ev : Event) : (s.emit ev).trace = s.trace ++ [ev] := rfl
@[simp] theorem State.emit_total (s : State) (ev : Event) : (s.emit ev).total = s.total := rfl
@[simp] theorem State.emit_cfg (s : State) (ev : Event) : (s.emit ev).cfg = s.cfg := rfl
@[simp] theorem State.emit_inputs (s : State) (ev : Event) : (s.emit ev).inputs = s.inputs := rfl
@[simp] theorem State.emit_schedule (s : State) (ev : Event) : (s.emit ev).schedule = s.schedule := rfl

/-! ## `State.emitChars` -/

@[simp] theorem State.emitChars_a (s : State) (bytes : List Byte) : (s.emitChars bytes).a = s.a := rfl
@[simp] theorem State.emitChars_b (s : State) (bytes : List Byte) : (s.emitChars bytes).b = s.b := rfl
@[simp] theorem State.emitChars_c (s : State) (bytes : List Byte) : (s.emitChars bytes).c = s.c := rfl
@[simp] theorem State.emitChars_d (s : State) (bytes : List Byte) : (s.emitChars bytes).d = s.d := rfl
@[simp] theorem State.emitChars_e (s : State) (bytes : List Byte) : (s.emitChars bytes).e = s.e := rfl
@[simp] theorem State.emitChars_h (s : State) (bytes : List Byte) : (s.emitChars bytes).h = s.h := rfl
@[simp] theorem State.emitChars_l (s : State) (bytes : List Byte) : (s.emitChars bytes).l = s.l := rfl
@[simp] theorem State.emitChars_sp (s : State) (bytes : List Byte) : (s.emitChars bytes).sp = s.sp := rfl
@[simp] theorem State.emitChars_pc (s : State) (bytes : List Byte) : (s.emitChars bytes).pc = s.pc := rfl
@[simp] theorem State.emitChars_flags (s : State) (bytes : List Byte) : (s.emitChars bytes).flags = s.flags := rfl
@[simp] theorem State.emitChars_halted (s : State) (bytes : List Byte) : (s.emitChars bytes).halted = s.halted := rfl
@[simp] theorem State.emitChars_ie (s : State) (bytes : List Byte) : (s.emitChars bytes).ie = s.ie := rfl
@[simp] theorem State.emitChars_mem (s : State) (bytes : List Byte) : (s.emitChars bytes).mem = s.mem := rfl
@[simp] theorem State.emitChars_disp (s : State) (bytes : List Byte) : (s.emitChars bytes).disp = s.disp := rfl
@[simp] theorem State.emitChars_trace (s : State) (bytes : List Byte) : (s.emitChars bytes).trace = s.trace ++ bytes.map Event.conOut := rfl
@[simp] theorem State.emitChars_total (s : State) (bytes : List Byte) : (s.emitChars bytes).total = s.total := rfl
@[simp] theorem State.emitChars_cfg (s : State) (bytes : List Byte) : (s.emitChars bytes).cfg = s.cfg := rfl
@[simp] theorem State.emitChars_inputs (s : State) (bytes : List Byte) : (s.emitChars bytes).inputs = s.inputs := rfl
@[simp] theorem State.emitChars_schedule (s : State) (bytes : List Byte) : (s.emitChars bytes).schedule = s.schedule := rfl

/-! ## `State.setAF` -/

@[simp] theorem State.setAF_a (s : State) (r : Byte × Flags) : (s.setAF r).a = r.1 := rfl
@[simp] theorem State.setAF_b (s : State) (r : Byte × Flags) : (s.setAF r).b = s.b := rfl
@[simp] theorem State.setAF_c (s : State) (r : Byte × Flags) : (s.setAF r).c = s.c := rfl
@[simp] theorem State.setAF_d (s : State) (r : Byte × Flags) : (s.setAF r).d = s.d := rfl
@[simp] theorem State.setAF_e (s : State) (r : Byte × Flags) : (s.setAF r).e = s.e := rfl
@[simp] theorem State.setAF_h (s : State) (r : Byte × Flags) : (s.setAF r).h = s.h := rfl
@[simp] theorem State.setAF_l (s : State) (r : Byte × Flags) : (s.setAF r).l = s.l := rfl
@[simp] theorem State.setAF_sp (s : State) (r : Byte × Flags) : (s.setAF r).sp = s.sp := rfl
@[simp] theorem State.setAF_pc (s : State) (r : Byte × Flags) : (s.setAF r).pc = s.pc := rfl
@[simp] theorem State.setAF_flags (s : State) (r : Byte × Flags) : (s.setAF r).flags = r.2 := rfl
@[simp] theorem State.setAF_halted (s : State) (r : Byte × Flags) : (s.setAF r).halted = s.halted := rfl
@[simp] theorem State.setAF_ie (s : State) (r : Byte × Flags) : (s.setAF r).ie = s.ie := rfl
@[simp] theorem State.setAF_mem (s : State) (r : Byte × Flags) : (s.setAF r).mem = s.mem := rfl
@[simp] theorem State.setAF_disp (s : State) (r : Byte × Flags) : (s.setAF r).disp = s.disp := rfl
@[simp] theorem State.setAF_trace (s : State) (r : Byte × Flags) : (s.setAF r).trace = s.trace := rfl
@[simp] theorem State.setAF_total (s : State) (r : Byte × Flags) : (s.setAF r).total = s.total := rfl
@[simp] theorem State.setAF_cfg (s : State) (r : Byte × Flags) : (s.setAF r).cfg = s.cfg := rfl
@[simp] theorem State.setAF_inputs (s : State) (r : Byte × Flags) : (s.setAF r).inputs = s.inputs := rfl
@[simp] theorem State.setAF_schedule (s : State) (r : Byte × Flags) : (s.setAF r).schedule = s.schedule := rfl

/-! ## `State.setBC` -/

@[simp] theorem State.setBC_a (s : State) (v : Word) : (s.setBC v).a = s.a := rfl
@[simp] theorem State.setBC_b (s : State) (v : Word) : (s.setBC v).b = hiByte v := rfl
@[simp] theorem State.setBC_c (s : State) (v : Word) : (s.setBC v).c = loByte v := rfl
@[simp] theorem State.setBC_d (s : State) (v : Word) : (s.setBC v).d = s.d := rfl
@[simp] theorem State.setBC_e (s : State) (v : Word) : (s.setBC v).e = s.e := rfl
@[simp] theorem State.setBC_h (s : State) (v : Word) : (s.setBC v).h = s.h := rfl
@[simp] theorem State.setBC_l (s : State) (v : Word) : (s.setBC v).l = s.l := rfl
@[simp] theorem State.setBC_sp (s : State) (v : Word) : (s.setBC v).sp = s.sp := rfl
@[simp] theorem State.setBC_pc (s : State) (v : Word) : (s.setBC v).pc = s.pc := rfl
@[simp] theorem State.setBC_flags (s : State) (v : Word) : (s.setBC v).flags = s.flags := rfl
@[simp] theorem State.setBC_halted (s : State) (v : Word) : (s.setBC v).halted = s.halted := rfl
@[simp] theorem State.setBC_ie (s : State) (v : Word) : (s.setBC v).ie = s.ie := rfl
@[simp] theorem State.setBC_mem (s : State) (v : Word) : (s.setBC v).mem = s.mem := rfl
@[simp] theorem State.setBC_disp (s : State) (v : Word) : (s.setBC v).disp = s.disp := rfl
@[simp] theorem State.setBC_trace (s : State) (v : Word) : (s.setBC v).trace = s.trace := rfl
@[simp] theorem State.setBC_total (s : State) (v : Word) : (s.setBC v).total = s.total := rfl
@[simp] theorem State.setBC_cfg (s : State) (v : Word) : (s.setBC v).cfg = s.cfg := rfl
@[simp] theorem State.setBC_inputs (s : State) (v : Word) : (s.setBC v).inputs = s.inputs := rfl
@[simp] theorem State.setBC_schedule (s : State) (v : Word) : (s.setBC v).schedule = s.schedule := rfl

/-! ## `State.setDE` -/

@[simp] theorem State.setDE_a (s : State) (v : Word) : (s.setDE v).a = s.a := rfl
@[simp] theorem State.setDE_b (s : State) (v : Word) : (s.setDE v).b = s.b := rfl
@[simp] theorem State.setDE_c (s : State) (v : Word) : (s.setDE v).c = s.c := rfl
@[simp] theorem State.setDE_d (s : State) (v : Word) : (s.setDE v).d = hiByte v := rfl
@[simp] theorem State.setDE_e (s : State) (v : Word) : (s.setDE v).e = loByte v := rfl
@[simp] theorem State.setDE_h (s : State) (v : Word) : (s.setDE v).h = s.h := rfl
@[simp] theorem State.setDE_l (s : State) (v : Word) : (s.setDE v).l = s.l := rfl
@[simp] theorem State.setDE_sp (s : State) (v : Word) : (s.setDE v).sp = s.sp := rfl
@[simp] theorem State.setDE_pc (s : State) (v : Word) : (s.setDE v).pc = s.pc := rfl
@[simp] theorem State.setDE_flags (s : State) (v : Word) : (s.setDE v).flags = s.flags := rfl
@[simp] theorem State.setDE_halted (s : State) (v : Word) : (s.setDE v).halted = s.halted := rfl
@[simp] theorem State.setDE_ie (s : State) (v : Word) : (s.setDE v).ie = s.ie := rfl
@[simp] theorem State.setDE_mem (s : State) (v : Word) : (s.setDE v).mem = s.mem := rfl
@[simp] theorem State.setDE_disp (s : State) (v : Word) : (s.setDE v).disp = s.disp := rfl
@[simp] theorem State.setDE_trace (s : State) (v : Word) : (s.setDE v).trace = s.trace := rfl
@[simp] theorem State.setDE_total (s : State) (v : Word) : (s.setDE v).total = s.total := rfl
@[simp] theorem State.setDE_cfg (s : State) (v : Word) : (s.setDE v).cfg = s.cfg := rfl
@[simp] theorem State.setDE_inputs (s : State) (v : Word) : (s.setDE v).inputs = s.inputs := rfl
@[simp] theorem State.setDE_schedule (s : State) (v : Word) : (s.setDE v).schedule = s.schedule := rfl

/-! ## `State.setHL` -/

@[simp] theorem State.setHL_a (s : State) (v : Word) : (s.setHL v).a = s.a := rfl
@[simp] theorem State.setHL_b (s : State) (v : Word) : (s.setHL v).b = s.b := rfl
@[simp] theorem State.setHL_c (s : State) (v : Word) : (s.setHL v).c = s.c := rfl
@[simp] theorem State.setHL_d (s : State) (v : Word) : (s.setHL v).d = s.d := rfl
@[simp] theorem State.setHL_e (s : State) (v : Word) : (s.setHL v).e = s.e := rfl
@[simp] theorem State.setHL_h (s : State) (v : Word) : (s.setHL v).h = hiByte v := rfl
@[simp] theorem State.setHL_l (s : State) (v : Word) : (s.setHL v).l = loByte v := rfl
@[simp] theorem State.setHL_sp (s : State) (v : Word) : (s.setHL v).sp = s.sp := rfl
@[simp] theorem State.setHL_pc (s : State) (v : Word) : (s.setHL v).pc = s.pc := rfl
@[simp] theorem State.setHL_flags (s : State) (v : Word) : (s.setHL v).flags = s.flags := rfl
@[simp] theorem State.setHL_halted (s : State) (v : Word) : (s.setHL v).halted = s.halted := rfl
@[simp] theorem State.setHL_ie (s : State) (v : Word) : (s.setHL v).ie = s.ie := rfl
@[simp] theorem State.setHL_mem (s : State) (v : Word) : (s.setHL v).mem = s.mem := rfl
@[simp] theorem State.setHL_disp (s : State) (v : Word) : (s.setHL v).disp = s.disp := rfl
@[simp] theorem State.setHL_trace (s : State) (v : Word) : (s.setHL v).trace = s.trace := rfl
@[simp] theorem State.setHL_total (s : State) (v : Word) : (s.setHL v).total = s.total := rfl
@[simp] theorem State.setHL_cfg (s : State) (v : Word) : (s.setHL v).cfg = s.cfg := rfl
@[simp] theorem State.setHL_inputs (s : State) (v : Word) : (s.setHL v).inputs = s.inputs := rfl
@[simp] theorem State.setHL_schedule (s : State) (v : Word) : (s.setHL v).schedule = s.schedule := rfl

/-! ## `State.setPsw` -/

@[simp] theorem State.setPsw_a (s : State) (v : Word) : (s.setPsw v).a = hiByte v := rfl
@[simp] theorem State.setPsw_b (s : State) (v : Word) : (s.setPsw v).b = s.b := rfl
@[simp] theorem State.setPsw_c (s : State) (v : Word) : (s.setPsw v).c = s.c := rfl
@[simp] theorem State.setPsw_d (s : State) (v : Word) : (s.setPsw v).d = s.d := rfl
@[simp] theorem State.setPsw_e (s : State) (v : Word) : (s.setPsw v).e = s.e := rfl
@[simp] theorem State.setPsw_h (s : State) (v : Word) : (s.setPsw v).h = s.h := rfl
@[simp] theorem State.setPsw_l (s : State) (v : Word) : (s.setPsw v).l = s.l := rfl
@[simp] theorem State.setPsw_sp (s : State) (v : Word) : (s.setPsw v).sp = s.sp := rfl
@[simp] theorem State.setPsw_pc (s : State) (v : Word) : (s.setPsw v).pc = s.pc := rfl
@[simp] theorem State.setPsw_flags (s : State) (v : Word) : (s.setPsw v).flags = poppedFlags (loByte v) := rfl
@[simp] theorem State.setPsw_halted (s : State) (v : Word) : (s.setPsw v).halted = s.halted := rfl
@[simp] theorem State.setPsw_ie (s : State) (v : Word) : (s.setPsw v).ie = s.ie := rfl
@[simp] theorem State.setPsw_mem (s : State) (v : Word) : (s.setPsw v).mem = s.mem := rfl
@[simp] theorem State.setPsw_disp (s : State) (v : Word) : (s.setPsw v).disp = s.disp := rfl
@[simp] theorem State.setPsw_trace (s : State) (v : Word) : (s.setPsw v).trace = s.trace := rfl
@[simp] theorem State.setPsw_total (s : State) (v : Word) : (s.setPsw v).total = s.total := rfl
@[simp] theorem State.setPsw_cfg (s : State) (v : Word) : (s.setPsw v).cfg = s.cfg := rfl
@[simp] theorem State.setPsw_inputs (s : State) (v : Word) : (s.setPsw v).inputs = s.inputs := rfl
@[simp] theorem State.setPsw_schedule (s : State) (v : Word) : (s.setPsw v).schedule = s.schedule := rfl

/-! ## `State.jumpTo` -/

@[simp] theorem State.jumpTo_a (s : State) (addr : Word) : (s.jumpTo addr).a = s.a := rfl
@[simp] theorem State.jumpTo_b (s : State) (addr : Word) : (s.jumpTo addr).b = s.b := rfl
@[simp] theorem State.jumpTo_c (s : State) (addr : Word) : (s.jumpTo addr).c = s.c := rfl
@[simp] theorem State.jumpTo_d (s : State) (addr : Word) : (s.jumpTo addr).d = s.d := rfl
@[simp] theorem State.jumpTo_e (s : State) (addr : Word) : (s.jumpTo addr).e = s.e := rfl
@[simp] theorem State.jumpTo_h (s : State) (addr : Word) : (s.jumpTo addr).h = s.h := rfl
@[simp] theorem State.jumpTo_l (s : State) (addr : Word) : (s.jumpTo addr).l = s.l := rfl
@[simp] theorem State.jumpTo_sp (s : State) (addr : Word) : (s.jumpTo addr).sp = s.sp := rfl
@[simp] theorem State.jumpTo_pc (s : State) (addr : Word) : (s.jumpTo addr).pc = addr := rfl
@[simp] theorem State.jumpTo_flags (s : State) (addr : Word) : (s.jumpTo addr).flags = s.flags := rfl
@[simp] theorem State.jumpTo_halted (s : State) (addr : Word) : (s.jumpTo addr).halted = s.halted := rfl
@[simp] theorem State.jumpTo_ie (s : State) (addr : Word) : (s.jumpTo addr).ie = s.ie := rfl
@[simp] theorem State.jumpTo_mem (s : State) (addr : Word) : (s.jumpTo addr).mem = s.mem := rfl
@[simp] theorem State.jumpTo_disp (s : State) (addr : Word) : (s.jumpTo addr).disp = s.disp := rfl
@[simp] theorem State.jumpTo_trace (s : State) (addr : Word) : (s.jumpTo addr).trace = s.trace := rfl
@[simp] theorem State.jumpTo_total (s : State) (addr : Word) : (s.jumpTo addr).total = s.total := rfl
@[simp] theorem State.jumpTo_cfg (s : State) (addr : Word) : (s.jumpTo addr).cfg = s.cfg := rfl
@[simp] theorem State.jumpTo_inputs (s : State) (addr : Word) : (s.jumpTo addr).inputs = s.inputs := rfl
@[simp] theorem State.jumpTo_schedule (s : State) (addr : Word) : (s.jumpTo addr).schedule = s.schedule := rfl

/-! ## `State.advancePc` -/

@[simp] theorem State.advancePc_a (s : State) (n : Nat) : (s.advancePc n).a = s.a := rfl
@[simp] theorem State.advancePc_b (s : State) (n : Nat) : (s.advancePc n).b = s.b := rfl
@[simp] theorem State.advancePc_c (s : State) (n : Nat) : (s.advancePc n).c = s.c := rfl
@[simp] theorem State.advancePc_d (s : State) (n : Nat) : (s.advancePc n).d = s.d := rfl
@[simp] theorem State.advancePc_e (s : State) (n : Nat) : (s.advancePc n).e = s.e := rfl
@[simp] theorem State.advancePc_h (s : State) (n : Nat) : (s.advancePc n).h = s.h := rfl
@[simp] theorem State.advancePc_l (s : State) (n : Nat) : (s.advancePc n).l = s.l := rfl
@[simp] theorem State.advancePc_sp (s : State) (n : Nat) : (s.advancePc n).sp = s.sp := rfl
@[simp] theorem State.advancePc_pc (s : State) (n : Nat) : (s.advancePc n).pc = s.pc + BitVec.ofNat 16 n := rfl
@[simp] theorem State.advancePc_flags (s : State) (n : Nat) : (s.advancePc n).flags = s.flags := rfl
@[simp] theorem State.advancePc_halted (s : State) (n : Nat) : (s.advancePc n).halted = s.halted := rfl
@[simp] theorem State.advancePc_ie (s : State) (n : Nat) : (s.advancePc n).ie = s.ie := rfl
@[simp] theorem State.advancePc_mem (s : State) (n : Nat) : (s.advancePc n).mem = s.mem := rfl
@[simp] theorem State.advancePc_disp (s : State) (n : Nat) : (s.advancePc n).disp = s.disp := rfl
@[simp] theorem State.advancePc_trace (s : State) (n : Nat) : (s.advancePc n).trace = s.trace := rfl
@[simp] theorem State.advancePc_total (s : State) (n : Nat) : (s.advancePc n).total = s.total := rfl
@[simp] theorem State.advancePc_cfg (s : State) (n : Nat) : (s.advancePc n).cfg = s.cfg := rfl
@[simp] theorem State.advancePc_inputs (s : State) (n : Nat) : (s.advancePc n).inputs = s.inputs := rfl
@[simp] theorem State.advancePc_schedule (s : State) (n : Nat) : (s.advancePc n).schedule = s.schedule := rfl

/-! ## `State.acceptInterrupt` -/

@[simp] theorem State.acceptInterrupt_a (s : State) : (s.acceptInterrupt).a = s.a := rfl
@[simp] theorem State.acceptInterrupt_b (s : State) : (s.acceptInterrupt).b = s.b := rfl
@[simp] theorem State.acceptInterrupt_c (s : State) : (s.acceptInterrupt).c = s.c := rfl
@[simp] theorem State.acceptInterrupt_d (s : State) : (s.acceptInterrupt).d = s.d := rfl
@[simp] theorem State.acceptInterrupt_e (s : State) : (s.acceptInterrupt).e = s.e := rfl
@[simp] theorem State.acceptInterrupt_h (s : State) : (s.acceptInterrupt).h = s.h := rfl
@[simp] theorem State.acceptInterrupt_l (s : State) : (s.acceptInterrupt).l = s.l := rfl
@[simp] theorem State.acceptInterrupt_sp (s : State) : (s.acceptInterrupt).sp = s.sp := rfl
@[simp] theorem State.acceptInterrupt_pc (s : State) : (s.acceptInterrupt).pc = s.pc := rfl
@[simp] theorem State.acceptInterrupt_flags (s : State) : (s.acceptInterrupt).flags = s.flags := rfl
@[simp] theorem State.acceptInterrupt_halted (s : State) : (s.acceptInterrupt).halted = s.halted := rfl
@[simp] theorem State.acceptInterrupt_ie (s : State) : (s.acceptInterrupt).ie = false := rfl
@[simp] theorem State.acceptInterrupt_mem (s : State) : (s.acceptInterrupt).mem = s.mem := rfl
@[simp] theorem State.acceptInterrupt_disp (s : State) : (s.acceptInterrupt).disp = s.disp := rfl
@[simp] theorem State.acceptInterrupt_trace (s : State) : (s.acceptInterrupt).trace = s.trace := rfl
@[simp] theorem State.acceptInterrupt_total (s : State) : (s.acceptInterrupt).total = s.total := rfl
@[simp] theorem State.acceptInterrupt_cfg (s : State) : (s.acceptInterrupt).cfg = s.cfg := rfl
@[simp] theorem State.acceptInterrupt_inputs (s : State) : (s.acceptInterrupt).inputs = s.inputs := rfl
@[simp] theorem State.acceptInterrupt_schedule (s : State) : (s.acceptInterrupt).schedule = s.schedule := rfl

/-! ## `State.portDrawn` -/

@[simp] theorem State.portDrawn_a (s : State) : (s.portDrawn).a = s.a := rfl
@[simp] theorem State.portDrawn_b (s : State) : (s.portDrawn).b = s.b := rfl
@[simp] theorem State.portDrawn_c (s : State) : (s.portDrawn).c = s.c := rfl
@[simp] theorem State.portDrawn_d (s : State) : (s.portDrawn).d = s.d := rfl
@[simp] theorem State.portDrawn_e (s : State) : (s.portDrawn).e = s.e := rfl
@[simp] theorem State.portDrawn_h (s : State) : (s.portDrawn).h = s.h := rfl
@[simp] theorem State.portDrawn_l (s : State) : (s.portDrawn).l = s.l := rfl
@[simp] theorem State.portDrawn_sp (s : State) : (s.portDrawn).sp = s.sp := rfl
@[simp] theorem State.portDrawn_pc (s : State) : (s.portDrawn).pc = s.pc := rfl
@[simp] theorem State.portDrawn_flags (s : State) : (s.portDrawn).flags = s.flags := rfl
@[simp] theorem State.portDrawn_halted (s : State) : (s.portDrawn).halted = s.halted := rfl
@[simp] theorem State.portDrawn_ie (s : State) : (s.portDrawn).ie = s.ie := rfl
@[simp] theorem State.portDrawn_mem (s : State) : (s.portDrawn).mem = s.mem := rfl
@[simp] theorem State.portDrawn_disp (s : State) : (s.portDrawn).disp = s.disp := rfl
@[simp] theorem State.portDrawn_trace (s : State) : (s.portDrawn).trace = s.trace := rfl
@[simp] theorem State.portDrawn_total (s : State) : (s.portDrawn).total = s.total := rfl
@[simp] theorem State.portDrawn_cfg (s : State) : (s.portDrawn).cfg = s.cfg := rfl
@[simp] theorem State.portDrawn_inputs (s : State) : (s.portDrawn).inputs = { s.inputs with portIn := s.inputs.portIn.tail, portDraws := s.inputs.portDraws + 1 } := rfl
@[simp] theorem State.portDrawn_schedule (s : State) : (s.portDrawn).schedule = s.schedule := rfl

/-! ## `State.conDrawn` -/

@[simp] theorem State.conDrawn_a (s : State) : (s.conDrawn).a = s.a := rfl
@[simp] theorem State.conDrawn_b (s : State) : (s.conDrawn).b = s.b := rfl
@[simp] theorem State.conDrawn_c (s : State) : (s.conDrawn).c = s.c := rfl
@[simp] theorem State.conDrawn_d (s : State) : (s.conDrawn).d = s.d := rfl
@[simp] theorem State.conDrawn_e (s : State) : (s.conDrawn).e = s.e := rfl
@[simp] theorem State.conDrawn_h (s : State) : (s.conDrawn).h = s.h := rfl
@[simp] theorem State.conDrawn_l (s : State) : (s.conDrawn).l = s.l := rfl
@[simp] theorem State.conDrawn_sp (s : State) : (s.conDrawn).sp = s.sp := rfl
@[simp] theorem State.conDrawn_pc (s : State) : (s.conDrawn).pc = s.pc := rfl
@[simp] theorem State.conDrawn_flags (s : State) : (s.conDrawn).flags = s.flags := rfl
@[simp] theorem State.conDrawn_halted (s : State) : (s.conDrawn).halted = s.halted := rfl
@[simp] theorem State.conDrawn_ie (s : State) : (s.conDrawn).ie = s.ie := rfl
@[simp] theorem State.conDrawn_mem (s : State) : (s.conDrawn).mem = s.mem := rfl
@[simp] theorem State.conDrawn_disp (s : State) : (s.conDrawn).disp = s.disp := rfl
@[simp] theorem State.conDrawn_trace (s : State) : (s.conDrawn).trace = s.trace := rfl
@[simp] theorem State.conDrawn_total (s : State) : (s.conDrawn).total = s.total := rfl
@[simp] theorem State.conDrawn_cfg (s : State) : (s.conDrawn).cfg = s.cfg := rfl
@[simp] theorem State.conDrawn_inputs (s : State) : (s.conDrawn).inputs = { s.inputs with conIn := s.inputs.conIn.tail, conDraws := s.inputs.conDraws + 1 } := rfl
@[simp] theorem State.conDrawn_schedule (s : State) : (s.conDrawn).schedule = s.schedule := rfl

/-! ## `State.lineDrawn` -/

@[simp] theorem State.lineDrawn_a (s : State) : (s.lineDrawn).a = s.a := rfl
@[simp] theorem State.lineDrawn_b (s : State) : (s.lineDrawn).b = s.b := rfl
@[simp] theorem State.lineDrawn_c (s : State) : (s.lineDrawn).c = s.c := rfl
@[simp] theorem State.lineDrawn_d (s : State) : (s.lineDrawn).d = s.d := rfl
@[simp] theorem State.lineDrawn_e (s : State) : (s.lineDrawn).e = s.e := rfl
@[simp] theorem State.lineDrawn_h (s : State) : (s.lineDrawn).h = s.h := rfl
@[simp] theorem State.lineDrawn_l (s : State) : (s.lineDrawn).l = s.l := rfl
@[simp] theorem State.lineDrawn_sp (s : State) : (s.lineDrawn).sp = s.sp := rfl
@[simp] theorem State.lineDrawn_pc (s : State) : (s.lineDrawn).pc = s.pc := rfl
@[simp] theorem State.lineDrawn_flags (s : State) : (s.lineDrawn).flags = s.flags := rfl
@[simp] theorem State.lineDrawn_halted (s : State) : (s.lineDrawn).halted = s.halted := rfl
@[simp] theorem State.lineDrawn_ie (s : State) : (s.lineDrawn).ie = s.ie := rfl
@[simp] theorem State.lineDrawn_mem (s : State) : (s.lineDrawn).mem = s.mem := rfl
@[simp] theorem State.lineDrawn_disp (s : State) : (s.lineDrawn).disp = s.disp := rfl
@[simp] theorem State.lineDrawn_trace (s : State) : (s.lineDrawn).trace = s.trace := rfl
@[simp] theorem State.lineDrawn_total (s : State) : (s.lineDrawn).total = s.total := rfl
@[simp] theorem State.lineDrawn_cfg (s : State) : (s.lineDrawn).cfg = s.cfg := rfl
@[simp] theorem State.lineDrawn_inputs (s : State) : (s.lineDrawn).inputs = { s.inputs with lineIn := s.inputs.lineIn.tail, lineDraws := s.inputs.lineDraws + 1 } := rfl
@[simp] theorem State.lineDrawn_schedule (s : State) : (s.lineDrawn).schedule = s.schedule := rfl

/-! ## `State.setReg`, `State.setPair`, `State.setStackPair`: the fields they never write -/

@[simp] theorem State.setReg_sp (s : State) (r : Reg) (v : Byte) : (s.setReg r v).sp = s.sp := by cases r <;> rfl
@[simp] theorem State.setReg_pc (s : State) (r : Reg) (v : Byte) : (s.setReg r v).pc = s.pc := by cases r <;> rfl
@[simp] theorem State.setReg_flags (s : State) (r : Reg) (v : Byte) : (s.setReg r v).flags = s.flags := by cases r <;> rfl
@[simp] theorem State.setReg_halted (s : State) (r : Reg) (v : Byte) : (s.setReg r v).halted = s.halted := by cases r <;> rfl
@[simp] theorem State.setReg_ie (s : State) (r : Reg) (v : Byte) : (s.setReg r v).ie = s.ie := by cases r <;> rfl
@[simp] theorem State.setReg_mem (s : State) (r : Reg) (v : Byte) : (s.setReg r v).mem = s.mem := by cases r <;> rfl
@[simp] theorem State.setReg_disp (s : State) (r : Reg) (v : Byte) : (s.setReg r v).disp = s.disp := by cases r <;> rfl
@[simp] theorem State.setReg_trace (s : State) (r : Reg) (v : Byte) : (s.setReg r v).trace = s.trace := by cases r <;> rfl
@[simp] theorem State.setReg_total (s : State) (r : Reg) (v : Byte) : (s.setReg r v).total = s.total := by cases r <;> rfl
@[simp] theorem State.setReg_cfg (s : State) (r : Reg) (v : Byte) : (s.setReg r v).cfg = s.cfg := by cases r <;> rfl
@[simp] theorem State.setReg_inputs (s : State) (r : Reg) (v : Byte) : (s.setReg r v).inputs = s.inputs := by cases r <;> rfl
@[simp] theorem State.setReg_schedule (s : State) (r : Reg) (v : Byte) : (s.setReg r v).schedule = s.schedule := by cases r <;> rfl
@[simp] theorem State.setPair_pc (s : State) (p : Pair) (v : Word) : (s.setPair p v).pc = s.pc := by cases p <;> rfl
@[simp] theorem State.setPair_flags (s : State) (p : Pair) (v : Word) : (s.setPair p v).flags = s.flags := by cases p <;> rfl
@[simp] theorem State.setPair_halted (s : State) (p : Pair) (v : Word) : (s.setPair p v).halted = s.halted := by cases p <;> rfl
@[simp] theorem State.setPair_ie (s : State) (p : Pair) (v : Word) : (s.setPair p v).ie = s.ie := by cases p <;> rfl
@[simp] theorem State.setPair_mem (s : State) (p : Pair) (v : Word) : (s.setPair p v).mem = s.mem := by cases p <;> rfl
@[simp] theorem State.setPair_disp (s : State) (p : Pair) (v : Word) : (s.setPair p v).disp = s.disp := by cases p <;> rfl
@[simp] theorem State.setPair_trace (s : State) (p : Pair) (v : Word) : (s.setPair p v).trace = s.trace := by cases p <;> rfl
@[simp] theorem State.setPair_total (s : State) (p : Pair) (v : Word) : (s.setPair p v).total = s.total := by cases p <;> rfl
@[simp] theorem State.setPair_cfg (s : State) (p : Pair) (v : Word) : (s.setPair p v).cfg = s.cfg := by cases p <;> rfl
@[simp] theorem State.setPair_inputs (s : State) (p : Pair) (v : Word) : (s.setPair p v).inputs = s.inputs := by cases p <;> rfl
@[simp] theorem State.setPair_schedule (s : State) (p : Pair) (v : Word) : (s.setPair p v).schedule = s.schedule := by cases p <;> rfl
@[simp] theorem State.setPair_a (s : State) (p : Pair) (v : Word) : (s.setPair p v).a = s.a := by cases p <;> rfl
@[simp] theorem State.setStackPair_sp (s : State) (p : StackPair) (v : Word) : (s.setStackPair p v).sp = s.sp := by cases p <;> rfl
@[simp] theorem State.setStackPair_pc (s : State) (p : StackPair) (v : Word) : (s.setStackPair p v).pc = s.pc := by cases p <;> rfl
@[simp] theorem State.setStackPair_flags (s : State) (p : StackPair) (v : Word) : (s.setStackPair p v).flags = s.flags := by cases p <;> rfl
@[simp] theorem State.setStackPair_halted (s : State) (p : StackPair) (v : Word) : (s.setStackPair p v).halted = s.halted := by cases p <;> rfl
@[simp] theorem State.setStackPair_ie (s : State) (p : StackPair) (v : Word) : (s.setStackPair p v).ie = s.ie := by cases p <;> rfl
@[simp] theorem State.setStackPair_mem (s : State) (p : StackPair) (v : Word) : (s.setStackPair p v).mem = s.mem := by cases p <;> rfl
@[simp] theorem State.setStackPair_disp (s : State) (p : StackPair) (v : Word) : (s.setStackPair p v).disp = s.disp := by cases p <;> rfl
@[simp] theorem State.setStackPair_trace (s : State) (p : StackPair) (v : Word) : (s.setStackPair p v).trace = s.trace := by cases p <;> rfl
@[simp] theorem State.setStackPair_total (s : State) (p : StackPair) (v : Word) : (s.setStackPair p v).total = s.total := by cases p <;> rfl
@[simp] theorem State.setStackPair_cfg (s : State) (p : StackPair) (v : Word) : (s.setStackPair p v).cfg = s.cfg := by cases p <;> rfl
@[simp] theorem State.setStackPair_inputs (s : State) (p : StackPair) (v : Word) : (s.setStackPair p v).inputs = s.inputs := by cases p <;> rfl
@[simp] theorem State.setStackPair_schedule (s : State) (p : StackPair) (v : Word) : (s.setStackPair p v).schedule = s.schedule := by cases p <;> rfl
@[simp] theorem State.setStackPair_a (s : State) (p : StackPair) (v : Word) : (s.setStackPair p v).a = s.a := by cases p <;> rfl

/-! ## `State.writeBytes`: memory alone is written -/

/-- `writeBytes` writes memory alone. -/
theorem State.writeBytes_eq (s : State) (addr : Word) (vs : List Byte) :
    s.writeBytes addr vs = { s with mem := (s.writeBytes addr vs).mem } := by
  induction vs generalizing s addr with
  | nil => rfl
  | cons v vs ih =>
    show (s.writeByte addr v).writeBytes (addr + 1#16) vs = _
    rw [ih]; rfl

@[simp] theorem State.writeBytes_a (s : State) (addr : Word) (vs : List Byte) : (s.writeBytes addr vs).a = s.a := by rw [State.writeBytes_eq]
@[simp] theorem State.writeBytes_b (s : State) (addr : Word) (vs : List Byte) : (s.writeBytes addr vs).b = s.b := by rw [State.writeBytes_eq]
@[simp] theorem State.writeBytes_c (s : State) (addr : Word) (vs : List Byte) : (s.writeBytes addr vs).c = s.c := by rw [State.writeBytes_eq]
@[simp] theorem State.writeBytes_d (s : State) (addr : Word) (vs : List Byte) : (s.writeBytes addr vs).d = s.d := by rw [State.writeBytes_eq]
@[simp] theorem State.writeBytes_e (s : State) (addr : Word) (vs : List Byte) : (s.writeBytes addr vs).e = s.e := by rw [State.writeBytes_eq]
@[simp] theorem State.writeBytes_h (s : State) (addr : Word) (vs : List Byte) : (s.writeBytes addr vs).h = s.h := by rw [State.writeBytes_eq]
@[simp] theorem State.writeBytes_l (s : State) (addr : Word) (vs : List Byte) : (s.writeBytes addr vs).l = s.l := by rw [State.writeBytes_eq]
@[simp] theorem State.writeBytes_sp (s : State) (addr : Word) (vs : List Byte) : (s.writeBytes addr vs).sp = s.sp := by rw [State.writeBytes_eq]
@[simp] theorem State.writeBytes_pc (s : State) (addr : Word) (vs : List Byte) : (s.writeBytes addr vs).pc = s.pc := by rw [State.writeBytes_eq]
@[simp] theorem State.writeBytes_flags (s : State) (addr : Word) (vs : List Byte) : (s.writeBytes addr vs).flags = s.flags := by rw [State.writeBytes_eq]
@[simp] theorem State.writeBytes_halted (s : State) (addr : Word) (vs : List Byte) : (s.writeBytes addr vs).halted = s.halted := by rw [State.writeBytes_eq]
@[simp] theorem State.writeBytes_ie (s : State) (addr : Word) (vs : List Byte) : (s.writeBytes addr vs).ie = s.ie := by rw [State.writeBytes_eq]
@[simp] theorem State.writeBytes_disp (s : State) (addr : Word) (vs : List Byte) : (s.writeBytes addr vs).disp = s.disp := by rw [State.writeBytes_eq]
@[simp] theorem State.writeBytes_trace (s : State) (addr : Word) (vs : List Byte) : (s.writeBytes addr vs).trace = s.trace := by rw [State.writeBytes_eq]
@[simp] theorem State.writeBytes_total (s : State) (addr : Word) (vs : List Byte) : (s.writeBytes addr vs).total = s.total := by rw [State.writeBytes_eq]
@[simp] theorem State.writeBytes_cfg (s : State) (addr : Word) (vs : List Byte) : (s.writeBytes addr vs).cfg = s.cfg := by rw [State.writeBytes_eq]
@[simp] theorem State.writeBytes_inputs (s : State) (addr : Word) (vs : List Byte) : (s.writeBytes addr vs).inputs = s.inputs := by rw [State.writeBytes_eq]
@[simp] theorem State.writeBytes_schedule (s : State) (addr : Word) (vs : List Byte) : (s.writeBytes addr vs).schedule = s.schedule := by rw [State.writeBytes_eq]

end Sys2Proof.Machine
end

