-- ==== Sys2Proof/Laws/Memory.lean ====
section
/-! SUPPORT. The laws of memory: read after write, and that every memory operation keeps the canonical form. -/

namespace Sys2Proof.Machine

/-! ## The canonical form -/

theorem Memory.wf_iff (m : Memory) :
    Memory.wf m = true ↔ m.Pairwise (fun x y => x.1 < y.1) ∧ ∀ x ∈ m, x.1 < 65536 ∧ x.2 ≠ 0#8 := by
  simp [Memory.wf]

theorem Memory.wf_nil : Memory.wf [] = true := rfl

theorem Memory.wf_cons (k : Nat) (v : Byte) (m : Memory) :
    Memory.wf ((k, v) :: m) = true ↔ (∀ x ∈ m, k < x.1) ∧ k < 65536 ∧ v ≠ 0#8 ∧ Memory.wf m = true := by
  simp only [Memory.wf_iff, List.pairwise_cons, List.mem_cons]
  constructor
  · rintro ⟨⟨h, hp⟩, ha⟩
    exact ⟨h, (ha _ (.inl rfl)).1, (ha _ (.inl rfl)).2, hp, fun x hx => ha x (.inr hx)⟩
  · rintro ⟨h, hk, hv, hp, ha⟩
    refine ⟨⟨h, hp⟩, ?_⟩
    rintro x (rfl | hx)
    · exact ⟨hk, hv⟩
    · exact ha x hx

theorem Memory.put_wf {m : Memory} {addr : Nat} {v : Byte} (hm : Memory.wf m = true) (ha : addr < 65536)
    (hlt : ∀ x ∈ m, addr < x.1) : Memory.wf (Memory.put addr v m) = true := by
  unfold Memory.put
  split
  · exact hm
  · next hv => exact (Memory.wf_cons _ _ _).2 ⟨hlt, ha, hv, hm⟩

theorem Memory.mem_write {m : Memory} {addr : Nat} {v : Byte} {x : Host.Cell}
    (hx : x ∈ Memory.write m addr v) : x.1 = addr ∨ x ∈ m := by
  induction m with
  | nil =>
    unfold Memory.write Memory.put at hx
    split at hx <;> simp_all
  | cons y m ih =>
    obtain ⟨k, w⟩ := y
    unfold Memory.write Memory.put at hx
    split at hx
    · split at hx
      · exact .inr hx
      · rcases List.mem_cons.1 hx with rfl | hx
        · exact .inl rfl
        · exact .inr hx
    · split at hx
      · split at hx
        · exact .inr (List.mem_cons_of_mem _ hx)
        · rcases List.mem_cons.1 hx with rfl | hx
          · exact .inl rfl
          · exact .inr (List.mem_cons_of_mem _ hx)
      · rcases List.mem_cons.1 hx with rfl | hx
        · exact .inr (List.mem_cons_self ..)
        · rcases ih hx with h | h
          · exact .inl h
          · exact .inr (List.mem_cons_of_mem _ h)

/-- A write keeps the canonical form. -/
theorem Memory.write_wf {m : Memory} {addr : Nat} (v : Byte) (hm : Memory.wf m = true) (ha : addr < 65536) :
    Memory.wf (Memory.write m addr v) = true := by
  induction m with
  | nil => exact Memory.put_wf Memory.wf_nil ha (by simp)
  | cons y m ih =>
    obtain ⟨k, w⟩ := y
    obtain ⟨hlt, hk, hw, hwf⟩ := (Memory.wf_cons k w m).1 hm
    unfold Memory.write
    split
    · next h =>
      refine Memory.put_wf hm ha fun x hx => ?_
      rcases List.mem_cons.1 hx with rfl | hx
      · exact h
      · exact Nat.lt_trans h (hlt x hx)
    · split
      · next h => exact Memory.put_wf hwf ha fun x hx => h ▸ hlt x hx
      · next h1 h2 =>
        refine (Memory.wf_cons _ _ _).2 ⟨fun x hx => ?_, hk, hw, ih hwf⟩
        rcases Memory.mem_write hx with h | h
        · omega
        · exact hlt x h

/-! ## Reading after writing -/

theorem Memory.read_of_lt {m : Memory} {addr : Nat} (h : ∀ x ∈ m, addr < x.1) : Memory.read m addr = 0#8 := by
  induction m with
  | nil => rfl
  | cons y m ih =>
    obtain ⟨k, w⟩ := y
    have hk : addr < k := h (k, w) (List.mem_cons_self ..)
    unfold Memory.read
    rw [if_neg (by omega)]
    exact ih fun x hx => h x (List.mem_cons_of_mem _ hx)

theorem Memory.read_put_self {m : Memory} {addr : Nat} {v : Byte} (h : ∀ x ∈ m, addr < x.1) :
    Memory.read (Memory.put addr v m) addr = v := by
  unfold Memory.put
  split
  · next hv => rw [Memory.read_of_lt h, hv]
  · simp [Memory.read]

theorem Memory.read_put_ne {m : Memory} {addr k : Nat} {v : Byte} (h : k ≠ addr) :
    Memory.read (Memory.put addr v m) k = Memory.read m k := by
  unfold Memory.put
  split
  · rfl
  · simp [Memory.read, Ne.symm h]

/-- A read of the address written gives the value written. -/
theorem Memory.read_write_self {m : Memory} {addr : Nat} (v : Byte) (hm : Memory.wf m = true) :
    Memory.read (Memory.write m addr v) addr = v := by
  induction m with
  | nil => exact Memory.read_put_self (by simp)
  | cons y m ih =>
    obtain ⟨k, w⟩ := y
    obtain ⟨hlt, hk, hw, hwf⟩ := (Memory.wf_cons k w m).1 hm
    unfold Memory.write
    split
    · next h =>
      refine Memory.read_put_self fun x hx => ?_
      rcases List.mem_cons.1 hx with rfl | hx
      · exact h
      · exact Nat.lt_trans h (hlt x hx)
    · split
      · next h => exact Memory.read_put_self fun x hx => h ▸ hlt x hx
      · next h1 h2 =>
        unfold Memory.read
        rw [if_neg (fun h => h2 h.symm)]
        exact ih hwf

/-- A read of any other address gives what it gave before. -/
theorem Memory.read_write_ne {m : Memory} {addr k : Nat} (v : Byte) (h : k ≠ addr) :
    Memory.read (Memory.write m addr v) k = Memory.read m k := by
  induction m with
  | nil => exact Memory.read_put_ne h
  | cons y m ih =>
    obtain ⟨j, w⟩ := y
    unfold Memory.write
    split
    · exact Memory.read_put_ne h
    · split
      · next h' =>
        rw [Memory.read_put_ne h]
        conv_rhs => unfold Memory.read
        rw [if_neg (by omega)]
      · unfold Memory.read
        split
        · rfl
        · exact ih

/-! ## The byte accesses of the machine -/

theorem State.readByte_writeByte_self {s : State} (addr : Word) (v : Byte) (hm : Memory.wf s.mem = true) :
    (s.writeByte addr v).readByte addr = v :=
  Memory.read_write_self v hm

theorem State.readByte_writeByte_ne {s : State} {addr k : Word} (v : Byte) (h : k ≠ addr) :
    (s.writeByte addr v).readByte k = s.readByte k :=
  Memory.read_write_ne v (fun he => h (BitVec.eq_of_toNat_eq he))

theorem State.writeByte_wf {s : State} (addr : Word) (v : Byte) (hm : Memory.wf s.mem = true) :
    Memory.wf (s.writeByte addr v).mem = true :=
  Memory.write_wf v hm addr.isLt

theorem State.writeWord_wf {s : State} (addr v : Word) (hm : Memory.wf s.mem = true) :
    Memory.wf (s.writeWord addr v).mem = true :=
  State.writeByte_wf _ _ (State.writeByte_wf _ _ hm)

theorem State.push16_wf {s : State} (v : Word) (hm : Memory.wf s.mem = true) :
    Memory.wf (s.push16 v).mem = true :=
  State.writeByte_wf (s := s.writeByte (s.sp - 1#16) (hiByte v)) _ _ (State.writeByte_wf _ _ hm)

theorem State.writeBytes_wf {s : State} (addr : Word) (vs : List Byte) (hm : Memory.wf s.mem = true) :
    Memory.wf (s.writeBytes addr vs).mem = true := by
  induction vs generalizing s addr with
  | nil => exact hm
  | cons v vs ih => exact ih _ (State.writeByte_wf _ _ hm)

/-- A push writes the high byte at SP-1, the low byte at SP-2 and no other byte. -/
theorem State.readByte_push16 {s : State} (v : Word) (hm : Memory.wf s.mem = true) (k : Word) :
    (s.push16 v).readByte k =
      if k = s.sp - 2#16 then loByte v else if k = s.sp - 1#16 then hiByte v else s.readByte k := by
  show ((s.writeByte (s.sp - 1#16) (hiByte v)).writeByte (s.sp - 2#16) (loByte v)).readByte k = _
  split
  · next h => subst h; exact State.readByte_writeByte_self _ _ (State.writeByte_wf _ _ hm)
  · next h =>
    rw [State.readByte_writeByte_ne _ h]
    split
    · next h' => subst h'; exact State.readByte_writeByte_self _ _ hm
    · next h' => exact State.readByte_writeByte_ne _ h'

/-- Outside the bytes written, `writeBytes` leaves memory as it was. -/
theorem State.readByte_writeBytes_ne {s : State} {addr k : Word} {vs : List Byte}
    (h : ∀ j < vs.length, k ≠ addr + BitVec.ofNat 16 j) :
    (s.writeBytes addr vs).readByte k = s.readByte k := by
  induction vs generalizing s addr with
  | nil => rfl
  | cons v vs ih =>
    show ((s.writeByte addr v).writeBytes (addr + 1#16) vs).readByte k = _
    rw [ih]
    · exact State.readByte_writeByte_ne _ (by simpa using h 0 (by simp))
    · intro j hj
      have := h (j + 1) (by simpa using hj)
      rwa [show addr + 1#16 + BitVec.ofNat 16 j = addr + BitVec.ofNat 16 (j + 1) by
        rw [BitVec.add_assoc]; congr 1; apply BitVec.eq_of_toNat_eq; simp; omega]

/-- `writeBytes` of at most 65536 bytes leaves byte `j` at `addr + j`. -/
theorem State.readByte_writeBytes_get {s : State} {addr : Word} {vs : List Byte} (hm : Memory.wf s.mem = true)
    (hl : vs.length ≤ 65536) {j : Nat} (hj : j < vs.length) :
    (s.writeBytes addr vs).readByte (addr + BitVec.ofNat 16 j) = vs[j] := by
  induction vs generalizing s addr j with
  | nil => simp at hj
  | cons v vs ih =>
    have hlen : vs.length + 1 ≤ 65536 := by simpa using hl
    show ((s.writeByte addr v).writeBytes (addr + 1#16) vs).readByte (addr + BitVec.ofNat 16 j) = _
    cases j with
    | zero =>
      rw [State.readByte_writeBytes_ne]
      · simpa using State.readByte_writeByte_self addr v hm
      · intro i hi he
        have := congrArg BitVec.toNat he
        simp at this
        omega
    | succ j =>
      rw [show addr + BitVec.ofNat 16 (j + 1) = addr + 1#16 + BitVec.ofNat 16 j by
        rw [BitVec.add_assoc]; congr 1; apply BitVec.eq_of_toNat_eq; simp; omega]
      exact ih (State.writeByte_wf _ _ hm) (by omega) (by simpa using hj)

end Sys2Proof.Machine
end

