-- ==== Sys2Proof/Laws/Dispatcher.lean ====
section
/-! SUPPORT. What a dispatcher call can change, and the laws of the storage backend. -/

namespace Sys2Proof.Machine

/-! ## What a call changes -/

/-- What a dispatcher call can do to the state: it writes memory, the dispatcher's state, the trace and the inputs and
nothing else; memory keeps its canonical form, the backend its form, the current drive is still a drive there is, and the
trace only grows. -/
structure DispatcherChange (s u : State) : Prop where
  frame : u = { s with mem := u.mem, disp := u.disp, trace := u.trace, inputs := u.inputs }
  mem_wf : Memory.wf s.mem = true → Memory.wf u.mem = true
  files_wf : ∀ n, filesWf n s.disp.files = true → filesWf n u.disp.files = true
  curDrive_lt : s.disp.curDrive < s.cfg.numDrives → u.disp.curDrive < s.cfg.numDrives
  trace : ∃ evs, u.trace = s.trace ++ evs

theorem DispatcherChange.refl (s : State) : DispatcherChange s s :=
  ⟨rfl, id, fun _ h => h, id, [], (List.append_nil _).symm⟩

/-- A call that writes memory alone. -/
theorem DispatcherChange.ofMem {s u : State} (h : u = { s with mem := u.mem })
    (hm : Memory.wf s.mem = true → Memory.wf u.mem = true) : DispatcherChange s u := by
  refine ⟨?_, hm, ?_, ?_, [], ?_⟩ <;> rw [h] <;> simp

/-- A call that sets the dispatcher's registers, the drive to one there is. -/
theorem DispatcherChange.ofRegisters (s : State) {drive : Nat} (dma : Word) (user : BitVec 5)
    (hd : s.disp.curDrive < s.cfg.numDrives → drive < s.cfg.numDrives) :
    DispatcherChange s
      { s with disp := { curDrive := drive, dma := dma, user := user, files := s.disp.files } } :=
  ⟨rfl, id, fun _ h => h, hd, [], (List.append_nil _).symm⟩

/-- A call that uses inputs up, writes memory and appends to the trace. -/
theorem DispatcherChange.ofConsole {s u : State} (evs : List Event)
    (h : u = { s with mem := u.mem, trace := s.trace ++ evs, inputs := u.inputs })
    (hm : Memory.wf s.mem = true → Memory.wf u.mem = true) : DispatcherChange s u := by
  refine ⟨?_, hm, ?_, ?_, evs, ?_⟩ <;> rw [h] <;> simp

theorem emitChars_writeBytes_eq (s : State) (addr : Word) (vs cs ds : List Byte) :
    ((s.writeBytes addr vs).emitChars cs).emitChars ds =
      { s with mem := (s.writeBytes addr vs).mem, trace := s.trace ++ (cs.map Event.conOut ++ ds.map Event.conOut) } := by
  rw [← List.append_assoc, State.writeBytes_eq]
  rfl

theorem sysReadLine_change (de : Word) (s : State) : DispatcherChange s (sysReadLine de s).2 := by
  have h := emitChars_writeBytes_eq (s.lineDrawn.writeByte (de + 1#16) (BitVec.ofNat 8 (s.lineAccepted de).length))
    (de + 2#16) (s.lineAccepted de) (s.lineAccepted de) [0x0D#8, 0x0A#8]
  unfold sysReadLine
  dsimp only
  rw [h]
  generalize s.lineAccepted de = t
  exact .ofConsole _ rfl fun hm => State.writeBytes_wf _ _ (State.writeByte_wf (s := s.lineDrawn) _ _ hm)

theorem sysSelectDrive_change (de : Word) (s : State) : DispatcherChange s (sysSelectDrive de s).2 := by
  unfold sysSelectDrive
  split
  · next h => exact .ofRegisters s _ _ fun _ => h
  · exact .refl s

theorem sysOpen_change (de : Word) (s : State) : DispatcherChange s (sysOpen de s).2 := by
  unfold sysOpen
  split
  · exact .refl s
  · exact .ofMem rfl fun hm => State.writeByte_wf _ _ (State.writeByte_wf _ _ hm)

theorem sysSearch_change (de : Word) (s : State) : DispatcherChange s (sysSearch de s).2 := by
  unfold sysSearch
  split
  · exact .refl s
  · exact .ofMem (State.writeBytes_eq ..) fun hm => State.writeBytes_wf _ _ hm

theorem sysDelete_change (de : Word) (s : State) : DispatcherChange s (sysDelete de s).2 := by
  unfold sysDelete
  split
  · exact .refl s
  · refine ⟨rfl, id, fun n hf => ?_, id, [], (List.append_nil _).symm⟩
    simp only [filesWf, Bool.and_eq_true, decide_eq_true_eq, List.all_eq_true] at hf ⊢
    exact ⟨hf.1.filter _, fun x hx => hf.2 x (List.mem_filter.1 hx).1⟩

theorem writeBytes_writeByte_change (s : State) (addr k : Word) (vs : List Byte) (v : Byte) :
    DispatcherChange s ((s.writeBytes addr vs).writeByte k v) := by
  refine .ofMem ?_ fun hm => State.writeByte_wf _ _ (State.writeBytes_wf _ _ hm)
  rw [State.writeBytes_eq]
  rfl

theorem sysReadRecord_change (de : Word) (s : State) : DispatcherChange s (sysReadRecord de s).2 := by
  unfold sysReadRecord
  split
  · exact .refl s
  · dsimp only
    split
    · exact .refl s
    · exact writeBytes_writeByte_change ..

theorem DispatcherChange.ite {p : Prop} [Decidable p] {s : State} {x y : Word × State} (hx : DispatcherChange s x.2)
    (hy : DispatcherChange s y.2) : DispatcherChange s (if p then x else y).2 := by
  split
  · exact hx
  · exact hy

/-- What any dispatcher call can do to the state. -/
theorem execute_change (fn : Nat) (bc de hl : Word) (s : State) : DispatcherChange s (execute fn bc de hl s).2 := by
  have h0 : s.disp.curDrive < s.cfg.numDrives → 0 < s.cfg.numDrives := Nat.lt_of_le_of_lt (Nat.zero_le _)
  unfold execute
  refine .ite (.ofRegisters s _ _ h0) ?_
  refine .ite ⟨rfl, id, fun _ h => h, id, [], (List.append_nil _).symm⟩ ?_
  refine .ite ⟨rfl, id, fun _ h => h, id, _, rfl⟩ ?_
  refine .ite ⟨rfl, id, fun _ h => h, id, _, rfl⟩ ?_
  refine .ite (sysReadLine_change de s) ?_
  refine .ite (.refl s) ?_
  refine .ite (.ofRegisters s _ _ h0) ?_
  refine .ite (sysSelectDrive_change de s) ?_
  refine .ite (sysOpen_change de s) ?_
  refine .ite (sysSearch_change de s) ?_
  refine .ite (sysDelete_change de s) ?_
  refine .ite (sysReadRecord_change de s) ?_
  refine .ite (.refl s) ?_
  refine .ite (.ofRegisters s _ _ id) ?_
  refine .ite (.refl s) ?_
  exact .ite (.ofRegisters s _ _ id) (.refl s)

/-! ## Keys -/

@[simp] theorem State.readBytes_length (s : State) (addr : Word) (n : Nat) : (s.readBytes addr n).length = n := by
  simp [State.readBytes]

@[simp] theorem State.fcbKey_length (s : State) (f : Word) : (s.fcbKey f).length = 11 := by simp [State.fcbKey]

/-! ## The order of keys -/

theorem keyLt_irrefl (k : List Byte) : keyLt k k = false := by
  induction k with
  | nil => rfl
  | cons x xs ih => simp [keyLt, ih]

theorem keyLt_trans {j k l : List Byte} (h1 : keyLt j k = true) (h2 : keyLt k l = true) : keyLt j l = true := by
  induction j generalizing k l with
  | nil =>
    cases k with
    | nil => simp [keyLt] at h1
    | cons y ys => cases l with
      | nil => simp [keyLt] at h2
      | cons z zs => rfl
  | cons x xs ih =>
    cases k with
    | nil => simp [keyLt] at h1
    | cons y ys =>
      cases l with
      | nil => simp [keyLt] at h2
      | cons z zs =>
        simp only [keyLt, Bool.or_eq_true, decide_eq_true_eq, Bool.and_eq_true, beq_iff_eq] at h1 h2 ⊢
        rcases h1 with h1 | ⟨rfl, h1⟩ <;> rcases h2 with h2 | ⟨rfl, h2⟩
        · exact .inl (BitVec.lt_trans h1 h2)
        · exact .inl h1
        · exact .inl h2
        · exact .inr ⟨rfl, ih h1 h2⟩

theorem keyLt_total {j k : List Byte} (h1 : keyLt j k = false) (h2 : keyLt k j = false) : j = k := by
  induction j generalizing k with
  | nil =>
    cases k with
    | nil => rfl
    | cons y ys => simp [keyLt] at h1
  | cons x xs ih =>
    cases k with
    | nil => simp [keyLt] at h2
    | cons y ys =>
      simp only [keyLt, Bool.or_eq_false_iff, decide_eq_false_iff_not, Bool.and_eq_false_imp, beq_iff_eq] at h1 h2
      have hxy : x = y := BitVec.eq_of_toNat_eq (by have := h1.1; have := h2.1; simp [BitVec.lt_def] at *; omega)
      subst hxy
      rw [ih (h1.2 rfl) (h2.2 rfl)]

/-! ## The first match -/

theorem leastKey_eq_none {ks : List (List Byte)} : leastKey ks = none ↔ ks = [] := by
  cases ks with
  | nil => simp [leastKey]
  | cons k ks =>
    simp only [leastKey, reduceCtorEq, iff_false]
    split <;> simp

/-- The first key is one of the keys, and none of them comes before it. -/
theorem leastKey_spec {ks : List (List Byte)} {k : List Byte} (h : leastKey ks = some k) :
    k ∈ ks ∧ ∀ j ∈ ks, keyLt j k = false := by
  induction ks generalizing k with
  | nil => simp [leastKey] at h
  | cons x xs ih =>
    simp only [leastKey] at h
    split at h
    · next h' =>
      rw [leastKey_eq_none] at h'
      subst h'
      simp only [Option.some.injEq] at h
      subst h
      simp [keyLt_irrefl]
    · next y h' =>
      obtain ⟨hy, hmin⟩ := ih h'
      simp only [Option.some.injEq] at h
      by_cases hyx : keyLt y x = true
      · rw [if_pos hyx] at h
        subst h
        refine ⟨List.mem_cons_of_mem _ hy, fun j hj => ?_⟩
        rcases List.mem_cons.1 hj with rfl | hj
        · by_contra hc
          have := keyLt_trans hyx (by simpa using hc)
          simp [keyLt_irrefl] at this
        · exact hmin j hj
      · rw [if_neg hyx] at h
        subst h
        refine ⟨List.mem_cons_self .., fun j hj => ?_⟩
        rcases List.mem_cons.1 hj with rfl | hj
        · exact keyLt_irrefl _
        · by_contra hc
          have hjx : keyLt j x = true := by simpa using hc
          by_cases hxy : keyLt x y = true
          · have := keyLt_trans hjx hxy
            simp [hmin j hj] at this
          · have := keyLt_total (by simpa using hxy) (by simpa using hyx)
            subst this
            simp [hmin j hj] at hjx

/-! ## Looking a file up -/

theorem getFile_eq_none {files : List FileEntry} {drive : Nat} {key : List Byte} :
    getFile files drive key = none ↔ ∀ x ∈ files, x.drive = drive → x.key ≠ key := by
  simp [getFile, List.find?_eq_none]

theorem not_before_self (x : FileEntry) : FileEntry.before x x = false := by
  simp [FileEntry.before, keyLt_irrefl]

theorem before_of_same {x y : FileEntry} (hd : x.drive = y.drive) (hk : x.key = y.key) :
    FileEntry.before x y = false := by
  simp [FileEntry.before, hd, hk, keyLt_irrefl]

/-- In a backend in its form, an entry is what its drive and key look up. -/
theorem getFile_of_mem {files : List FileEntry} {n : Nat} (hf : filesWf n files = true) {x : FileEntry} (hx : x ∈ files) :
    getFile files x.drive x.key = some x.blob := by
  simp only [filesWf, Bool.and_eq_true, decide_eq_true_eq, List.all_eq_true] at hf
  obtain ⟨hp, -⟩ := hf
  induction files with
  | nil => simp at hx
  | cons y ys ih =>
    obtain ⟨hy, hp⟩ := List.pairwise_cons.1 hp
    unfold getFile
    rw [List.find?_cons]
    split
    · next h =>
      simp only [Bool.and_eq_true, beq_iff_eq] at h
      rcases List.mem_cons.1 hx with rfl | hx
      · rfl
      · exact absurd (hy x hx) (by simp [before_of_same h.1 h.2])
    · next h =>
      rcases List.mem_cons.1 hx with rfl | hx
      · simp at h
      · exact ih hx hp

/-- A deletion keeps exactly the entries under another drive or key. -/
theorem mem_deleteFile {files : List FileEntry} {drive : Nat} {key : List Byte} {x : FileEntry} :
    x ∈ deleteFile files drive key ↔ x ∈ files ∧ ¬ (x.drive = drive ∧ x.key = key) := by
  simp only [deleteFile, List.mem_filter, Bool.not_eq_true', Bool.and_eq_false_iff, beq_eq_false_iff_ne, ne_eq, not_and_or]

/-- A file that was deleted is not found. -/
theorem getFile_deleteFile_self (files : List FileEntry) (drive : Nat) (key : List Byte) :
    getFile (deleteFile files drive key) drive key = none :=
  getFile_eq_none.2 fun _ hx hd hk => (mem_deleteFile.1 hx).2 ⟨hd, hk⟩

/-- A deletion leaves every other file. -/
theorem getFile_deleteFile_ne (files : List FileEntry) {drive drive' : Nat} {key key' : List Byte}
    (h : drive' ≠ drive ∨ key' ≠ key) :
    getFile (deleteFile files drive key) drive' key' = getFile files drive' key' := by
  induction files with
  | nil => rfl
  | cons x xs ih =>
    by_cases hx : x.drive = drive' ∧ x.key = key'
    · obtain ⟨rfl, rfl⟩ := hx
      have hne : (x.drive == drive && x.key == key) = false := by
        rcases h with h | h <;> simp [h]
      unfold getFile deleteFile
      rw [List.filter_cons_of_pos (by simp [hne]), List.find?_cons_of_pos (by simp), List.find?_cons_of_pos (by simp)]
    · have hx' : (x.drive == drive' && x.key == key') = false := by
        rw [Bool.eq_false_iff]; simpa using hx
      unfold deleteFile at ih ⊢
      rw [List.filter_cons]
      split
      · simpa [getFile, List.find?_cons, hx'] using ih
      · simpa [getFile, List.find?_cons, hx'] using ih

end Sys2Proof.Machine
end

