-- ==== Sys2Proof/Laws/Flags.lean ====
section
/-! SUPPORT. What each function of the flag-arithmetic unit computes, in numbers. -/

namespace Sys2Proof.Machine

open Sys2Proof.Safety

/-- `parity` is 1 for an even number of 1 bits (R100). -/
theorem parity_iff (v : Byte) : parity v = true ↔ onesOf v % 2 = 0 := by
  simp only [parity, onesOf, List.range, List.range.loop, List.countP_cons, List.countP_nil, beq_iff_eq]
  generalize v.getLsbD 0 = b0, v.getLsbD 1 = b1, v.getLsbD 2 = b2, v.getLsbD 3 = b3
  generalize v.getLsbD 4 = b4, v.getLsbD 5 = b5, v.getLsbD 6 = b6, v.getLsbD 7 = b7
  cases b0 <;> cases b1 <;> cases b2 <;> cases b3 <;> cases b4 <;> cases b5 <;> cases b6 <;> cases b7 <;> rfl

theorem getLsbD_seven_iff (v : Byte) : v.getLsbD 7 = true ↔ 128 ≤ v.toNat := by
  have := v.isLt
  rw [← BitVec.testBit_toNat, Nat.testBit, Nat.shiftRight_eq_div_pow]
  simp [Nat.and_comm 1]
  omega

theorem getLsbD_zero_iff (v : Byte) : v.getLsbD 0 = true ↔ v.toNat % 2 = 1 := by
  rw [← BitVec.testBit_toNat, Nat.testBit_zero]
  simp

/-- Flags whose S, Z, P come from `zsp` are those of the result, whatever CY and AC are (R101). -/
theorem resultFlags_zsp (v : Byte) (f : Flags) (ac cy : Bool) :
    ResultFlags v { zsp v f with auxCarry := ac, carry := cy } where
  zero := by simp [zsp, BitVec.toNat_eq]
  sign := getLsbD_seven_iff v
  parity := parity_iff v

theorem add8_spec (x y : Byte) (cin : Bool) (f : Flags) :
    AddResult x y cin (add8 x y cin f).1 (add8 x y cin f).2 where
  value := by simp [add8]
  szp := resultFlags_zsp _ f _ _
  carry := by simp [add8]
  auxCarry := by simp [add8, addAuxCarry]

theorem sub8_spec (x y : Byte) (bin : Bool) (f : Flags) :
    SubResult x y bin (sub8 x y bin f).1 (sub8 x y bin f).2 where
  value := by simp [sub8, BitVec.toNat_ofInt]; omega
  szp := resultFlags_zsp _ f _ _
  carry := by simp [sub8]; omega
  auxCarry := by simp [sub8, subAuxCarry]; omega

theorem inc8_value (v : Byte) (f : Flags) : (inc8 v f).1.toNat = (v.toNat + 1) % 256 := by
  simp [inc8, BitVec.toNat_add]

theorem inc8_szp (v : Byte) (f : Flags) : ResultFlags (inc8 v f).1 (inc8 v f).2 := resultFlags_zsp _ f _ _

theorem inc8_auxCarry (v : Byte) (f : Flags) : (inc8 v f).2.auxCarry = true ↔ v.toNat % 16 = 15 := by
  have := v.isLt
  simp [inc8, BitVec.toNat_eq, BitVec.extractLsb'_toNat, BitVec.toNat_add]
  omega

@[simp] theorem inc8_carry (v : Byte) (f : Flags) : (inc8 v f).2.carry = f.carry := rfl

theorem dec8_value (v : Byte) (f : Flags) : (dec8 v f).1.toNat = (v.toNat + 255) % 256 := by
  simp [dec8, BitVec.toNat_sub]
  omega

theorem dec8_szp (v : Byte) (f : Flags) : ResultFlags (dec8 v f).1 (dec8 v f).2 := resultFlags_zsp _ f _ _

@[simp] theorem dec8_auxCarry (v : Byte) (f : Flags) : (dec8 v f).2.auxCarry = true := rfl

@[simp] theorem dec8_carry (v : Byte) (f : Flags) : (dec8 v f).2.carry = f.carry := rfl

theorem andFlags_spec (r : Byte) (f : Flags) : LogicResult r true (andFlags r f) where
  szp := resultFlags_zsp r f _ _
  carry := rfl
  auxCarry := rfl

theorem orXorFlags_spec (r : Byte) (f : Flags) : LogicResult r false (orXorFlags r f) where
  szp := resultFlags_zsp r f _ _
  carry := rfl
  auxCarry := rfl

theorem daa8_szp (x : Byte) (f : Flags) : ResultFlags (daa8 x f).1 (daa8 x f).2 := resultFlags_zsp _ f _ _

theorem daa8_value (x : Byte) (f : Flags) : (daa8 x f).1.toNat = (x.toNat + daaCorrection x f) % 256 := by
  simp [daa8]

theorem daaLowExceeds_iff (x : Byte) : daaLowExceeds x = true ↔ 9 < x.toNat % 16 := by
  simp [daaLowExceeds]

theorem daaHighTest_iff (x : Byte) (f : Flags) : daaHighTest x f = true ↔ 0x99 < x.toNat ∨ f.carry = true := by
  simp [daaHighTest]

/-- DAA's AC is the carry out of bit 3 of the corrected sum (R135, reading 3). -/
theorem daa8_auxCarry_eq_nibble_carry (x : Byte) (f : Flags) :
    (daa8 x f).2.auxCarry = true ↔ 15 < x.toNat % 16 + daaCorrection x f % 16 := by
  have hac : (daa8 x f).2.auxCarry = daaLowExceeds x := rfl
  rw [hac, daaLowExceeds_iff]
  unfold daaCorrection
  have h := daaLowExceeds_iff x
  split <;> split <;> simp_all <;> omega

/-- The packed byte unpacks to the flags (R27, R28). -/
@[simp] theorem flagsOfByte_toNat_pack (f : Flags) : (flagByte f).toNat =
    f.sign.toNat * 128 + f.zero.toNat * 64 + f.auxCarry.toNat * 16 + f.parity.toNat * 4 + 2 + f.carry.toNat := by
  obtain ⟨s, z, ac, p, cy⟩ := f
  cases s <;> cases z <;> cases ac <;> cases p <;> cases cy <;> rfl

end Sys2Proof.Machine
end

