-- ==== Sys2Proof/Laws/PerInstr.lean ====
section
/-! SUPPORT. Laws stated per instruction, one lemma per constructor. -/

/-- An instruction's bytes are as many as its length says, one to three (R70, R71). -/
def Sys2Proof.Laws.EncodeLength.Statement (i : Sys2Proof.Instr) : Prop :=
  (Sys2Proof.encode i).length = i.length ∧ 1 ≤ i.length ∧ i.length ≤ 3

namespace Sys2Proof.Laws.EncodeLength

theorem movRR (dst src : Reg) : Statement (.movRR dst src) := ⟨rfl, Nat.le_of_ble_eq_true rfl, Nat.le_of_ble_eq_true rfl⟩
theorem movRM (dst : Reg) : Statement (.movRM dst) := ⟨rfl, Nat.le_of_ble_eq_true rfl, Nat.le_of_ble_eq_true rfl⟩
theorem movMR (src : Reg) : Statement (.movMR src) := ⟨rfl, Nat.le_of_ble_eq_true rfl, Nat.le_of_ble_eq_true rfl⟩
theorem mviR (dst : Reg) (d8 : Byte) : Statement (.mviR dst d8) := ⟨rfl, Nat.le_of_ble_eq_true rfl, Nat.le_of_ble_eq_true rfl⟩
theorem mviM (d8 : Byte) : Statement (.mviM d8) := ⟨rfl, Nat.le_of_ble_eq_true rfl, Nat.le_of_ble_eq_true rfl⟩
theorem lxi (rp : Pair) (d16 : Word) : Statement (.lxi rp d16) := ⟨rfl, Nat.le_of_ble_eq_true rfl, Nat.le_of_ble_eq_true rfl⟩
theorem lda (a16 : Word) : Statement (.lda a16) := ⟨rfl, Nat.le_of_ble_eq_true rfl, Nat.le_of_ble_eq_true rfl⟩
theorem sta (a16 : Word) : Statement (.sta a16) := ⟨rfl, Nat.le_of_ble_eq_true rfl, Nat.le_of_ble_eq_true rfl⟩
theorem lhld (a16 : Word) : Statement (.lhld a16) := ⟨rfl, Nat.le_of_ble_eq_true rfl, Nat.le_of_ble_eq_true rfl⟩
theorem shld (a16 : Word) : Statement (.shld a16) := ⟨rfl, Nat.le_of_ble_eq_true rfl, Nat.le_of_ble_eq_true rfl⟩
theorem ldax (rp : IndexPair) : Statement (.ldax rp) := ⟨rfl, Nat.le_of_ble_eq_true rfl, Nat.le_of_ble_eq_true rfl⟩
theorem stax (rp : IndexPair) : Statement (.stax rp) := ⟨rfl, Nat.le_of_ble_eq_true rfl, Nat.le_of_ble_eq_true rfl⟩
theorem xchg : Statement .xchg := ⟨rfl, by decide, by decide⟩
theorem addR (src : Reg) : Statement (.addR src) := ⟨rfl, Nat.le_of_ble_eq_true rfl, Nat.le_of_ble_eq_true rfl⟩
theorem addM : Statement .addM := ⟨rfl, by decide, by decide⟩
theorem adi (d8 : Byte) : Statement (.adi d8) := ⟨rfl, Nat.le_of_ble_eq_true rfl, Nat.le_of_ble_eq_true rfl⟩
theorem adcR (src : Reg) : Statement (.adcR src) := ⟨rfl, Nat.le_of_ble_eq_true rfl, Nat.le_of_ble_eq_true rfl⟩
theorem adcM : Statement .adcM := ⟨rfl, by decide, by decide⟩
theorem aci (d8 : Byte) : Statement (.aci d8) := ⟨rfl, Nat.le_of_ble_eq_true rfl, Nat.le_of_ble_eq_true rfl⟩
theorem subR (src : Reg) : Statement (.subR src) := ⟨rfl, Nat.le_of_ble_eq_true rfl, Nat.le_of_ble_eq_true rfl⟩
theorem subM : Statement .subM := ⟨rfl, by decide, by decide⟩
theorem sui (d8 : Byte) : Statement (.sui d8) := ⟨rfl, Nat.le_of_ble_eq_true rfl, Nat.le_of_ble_eq_true rfl⟩
theorem sbbR (src : Reg) : Statement (.sbbR src) := ⟨rfl, Nat.le_of_ble_eq_true rfl, Nat.le_of_ble_eq_true rfl⟩
theorem sbbM : Statement .sbbM := ⟨rfl, by decide, by decide⟩
theorem sbi (d8 : Byte) : Statement (.sbi d8) := ⟨rfl, Nat.le_of_ble_eq_true rfl, Nat.le_of_ble_eq_true rfl⟩
theorem cmpR (src : Reg) : Statement (.cmpR src) := ⟨rfl, Nat.le_of_ble_eq_true rfl, Nat.le_of_ble_eq_true rfl⟩
theorem cmpM : Statement .cmpM := ⟨rfl, by decide, by decide⟩
theorem cpi (d8 : Byte) : Statement (.cpi d8) := ⟨rfl, Nat.le_of_ble_eq_true rfl, Nat.le_of_ble_eq_true rfl⟩
theorem inrR (dst : Reg) : Statement (.inrR dst) := ⟨rfl, Nat.le_of_ble_eq_true rfl, Nat.le_of_ble_eq_true rfl⟩
theorem inrM : Statement .inrM := ⟨rfl, by decide, by decide⟩
theorem dcrR (dst : Reg) : Statement (.dcrR dst) := ⟨rfl, Nat.le_of_ble_eq_true rfl, Nat.le_of_ble_eq_true rfl⟩
theorem dcrM : Statement .dcrM := ⟨rfl, by decide, by decide⟩
theorem inx (rp : Pair) : Statement (.inx rp) := ⟨rfl, Nat.le_of_ble_eq_true rfl, Nat.le_of_ble_eq_true rfl⟩
theorem dcx (rp : Pair) : Statement (.dcx rp) := ⟨rfl, Nat.le_of_ble_eq_true rfl, Nat.le_of_ble_eq_true rfl⟩
theorem dad (rp : Pair) : Statement (.dad rp) := ⟨rfl, Nat.le_of_ble_eq_true rfl, Nat.le_of_ble_eq_true rfl⟩
theorem daa : Statement .daa := ⟨rfl, by decide, by decide⟩
theorem anaR (src : Reg) : Statement (.anaR src) := ⟨rfl, Nat.le_of_ble_eq_true rfl, Nat.le_of_ble_eq_true rfl⟩
theorem anaM : Statement .anaM := ⟨rfl, by decide, by decide⟩
theorem ani (d8 : Byte) : Statement (.ani d8) := ⟨rfl, Nat.le_of_ble_eq_true rfl, Nat.le_of_ble_eq_true rfl⟩
theorem xraR (src : Reg) : Statement (.xraR src) := ⟨rfl, Nat.le_of_ble_eq_true rfl, Nat.le_of_ble_eq_true rfl⟩
theorem xraM : Statement .xraM := ⟨rfl, by decide, by decide⟩
theorem xri (d8 : Byte) : Statement (.xri d8) := ⟨rfl, Nat.le_of_ble_eq_true rfl, Nat.le_of_ble_eq_true rfl⟩
theorem oraR (src : Reg) : Statement (.oraR src) := ⟨rfl, Nat.le_of_ble_eq_true rfl, Nat.le_of_ble_eq_true rfl⟩
theorem oraM : Statement .oraM := ⟨rfl, by decide, by decide⟩
theorem ori (d8 : Byte) : Statement (.ori d8) := ⟨rfl, Nat.le_of_ble_eq_true rfl, Nat.le_of_ble_eq_true rfl⟩
theorem rlc : Statement .rlc := ⟨rfl, by decide, by decide⟩
theorem rrc : Statement .rrc := ⟨rfl, by decide, by decide⟩
theorem ral : Statement .ral := ⟨rfl, by decide, by decide⟩
theorem rar : Statement .rar := ⟨rfl, by decide, by decide⟩
theorem cma : Statement .cma := ⟨rfl, by decide, by decide⟩
theorem stc : Statement .stc := ⟨rfl, by decide, by decide⟩
theorem cmc : Statement .cmc := ⟨rfl, by decide, by decide⟩
theorem jmp (a16 : Word) : Statement (.jmp a16) := ⟨rfl, Nat.le_of_ble_eq_true rfl, Nat.le_of_ble_eq_true rfl⟩
theorem jnz (a16 : Word) : Statement (.jnz a16) := ⟨rfl, Nat.le_of_ble_eq_true rfl, Nat.le_of_ble_eq_true rfl⟩
theorem jz (a16 : Word) : Statement (.jz a16) := ⟨rfl, Nat.le_of_ble_eq_true rfl, Nat.le_of_ble_eq_true rfl⟩
theorem jnc (a16 : Word) : Statement (.jnc a16) := ⟨rfl, Nat.le_of_ble_eq_true rfl, Nat.le_of_ble_eq_true rfl⟩
theorem jc (a16 : Word) : Statement (.jc a16) := ⟨rfl, Nat.le_of_ble_eq_true rfl, Nat.le_of_ble_eq_true rfl⟩
theorem jpo (a16 : Word) : Statement (.jpo a16) := ⟨rfl, Nat.le_of_ble_eq_true rfl, Nat.le_of_ble_eq_true rfl⟩
theorem jpe (a16 : Word) : Statement (.jpe a16) := ⟨rfl, Nat.le_of_ble_eq_true rfl, Nat.le_of_ble_eq_true rfl⟩
theorem jp (a16 : Word) : Statement (.jp a16) := ⟨rfl, Nat.le_of_ble_eq_true rfl, Nat.le_of_ble_eq_true rfl⟩
theorem jm (a16 : Word) : Statement (.jm a16) := ⟨rfl, Nat.le_of_ble_eq_true rfl, Nat.le_of_ble_eq_true rfl⟩
theorem call (a16 : Word) : Statement (.call a16) := ⟨rfl, Nat.le_of_ble_eq_true rfl, Nat.le_of_ble_eq_true rfl⟩
theorem cnz (a16 : Word) : Statement (.cnz a16) := ⟨rfl, Nat.le_of_ble_eq_true rfl, Nat.le_of_ble_eq_true rfl⟩
theorem cz (a16 : Word) : Statement (.cz a16) := ⟨rfl, Nat.le_of_ble_eq_true rfl, Nat.le_of_ble_eq_true rfl⟩
theorem cnc (a16 : Word) : Statement (.cnc a16) := ⟨rfl, Nat.le_of_ble_eq_true rfl, Nat.le_of_ble_eq_true rfl⟩
theorem cc (a16 : Word) : Statement (.cc a16) := ⟨rfl, Nat.le_of_ble_eq_true rfl, Nat.le_of_ble_eq_true rfl⟩
theorem cpo (a16 : Word) : Statement (.cpo a16) := ⟨rfl, Nat.le_of_ble_eq_true rfl, Nat.le_of_ble_eq_true rfl⟩
theorem cpe (a16 : Word) : Statement (.cpe a16) := ⟨rfl, Nat.le_of_ble_eq_true rfl, Nat.le_of_ble_eq_true rfl⟩
theorem cp (a16 : Word) : Statement (.cp a16) := ⟨rfl, Nat.le_of_ble_eq_true rfl, Nat.le_of_ble_eq_true rfl⟩
theorem cm (a16 : Word) : Statement (.cm a16) := ⟨rfl, Nat.le_of_ble_eq_true rfl, Nat.le_of_ble_eq_true rfl⟩
theorem ret : Statement .ret := ⟨rfl, by decide, by decide⟩
theorem rnz : Statement .rnz := ⟨rfl, by decide, by decide⟩
theorem rz : Statement .rz := ⟨rfl, by decide, by decide⟩
theorem rnc : Statement .rnc := ⟨rfl, by decide, by decide⟩
theorem rc : Statement .rc := ⟨rfl, by decide, by decide⟩
theorem rpo : Statement .rpo := ⟨rfl, by decide, by decide⟩
theorem rpe : Statement .rpe := ⟨rfl, by decide, by decide⟩
theorem rp : Statement .rp := ⟨rfl, by decide, by decide⟩
theorem rm : Statement .rm := ⟨rfl, by decide, by decide⟩
theorem rst (n : BitVec 3) : Statement (.rst n) := ⟨rfl, Nat.le_of_ble_eq_true rfl, Nat.le_of_ble_eq_true rfl⟩
theorem pchl : Statement .pchl := ⟨rfl, by decide, by decide⟩
theorem push (rp : StackPair) : Statement (.push rp) := ⟨rfl, Nat.le_of_ble_eq_true rfl, Nat.le_of_ble_eq_true rfl⟩
theorem pushPsw : Statement .pushPsw := ⟨rfl, by decide, by decide⟩
theorem pop (rp : StackPair) : Statement (.pop rp) := ⟨rfl, Nat.le_of_ble_eq_true rfl, Nat.le_of_ble_eq_true rfl⟩
theorem popPsw : Statement .popPsw := ⟨rfl, by decide, by decide⟩
theorem xthl : Statement .xthl := ⟨rfl, by decide, by decide⟩
theorem sphl : Statement .sphl := ⟨rfl, by decide, by decide⟩
theorem inp (p8 : Byte) : Statement (.inp p8) := ⟨rfl, Nat.le_of_ble_eq_true rfl, Nat.le_of_ble_eq_true rfl⟩
theorem outp (p8 : Byte) : Statement (.outp p8) := ⟨rfl, Nat.le_of_ble_eq_true rfl, Nat.le_of_ble_eq_true rfl⟩
theorem ei : Statement .ei := ⟨rfl, by decide, by decide⟩
theorem di : Statement .di := ⟨rfl, by decide, by decide⟩
theorem hlt : Statement .hlt := ⟨rfl, by decide, by decide⟩
theorem nop : Statement .nop := ⟨rfl, by decide, by decide⟩
theorem undef (op : Byte) : Statement (.undef op) := ⟨rfl, Nat.le_of_ble_eq_true rfl, Nat.le_of_ble_eq_true rfl⟩

end Sys2Proof.Laws.EncodeLength
end

