-- ==== Sys2Proof/Laws/Step.lean ====
section
/-! SUPPORT. What a transition can be, and what any instruction leaves as it was. -/

namespace Sys2Proof.Machine

open Sys2Proof.Safety

/-! ## The step -/

/-- A step with nothing scheduled, or with `run` scheduled first, is a turn of the driver. -/
theorem step_run {s : State} (h : s.nextTransition = .run) :
    step s = runTurn { s with schedule := s.schedule.tail } := by
  unfold step takeTurn
  rw [h]
  rfl

/-- A turn of the driver is nothing, a system call, or one instruction (R278). -/
theorem runTurn_cases {s t : State} (h : runTurn s = .next t) :
    (s.halted = true ∧ t = s) ∨
    (s.halted = false ∧ s.atTrampoline = true ∧ t = syscall s) ∨
    (s.halted = false ∧ s.atTrampoline = false ∧
      executeOpcode (s.readByte s.pc) { s.advancePc 1 with total := s.total + stepCost s } = .next t) := by
  unfold runTurn at h
  split at h
  · next hh => exact .inl ⟨hh, (Host.Outcome.next.inj h).symm⟩
  · next hh =>
    have hh : s.halted = false := by simpa using hh
    split at h
    · next h2 => exact .inr (.inl ⟨hh, h2, (Host.Outcome.next.inj h).symm⟩)
    · next h2 =>
      refine .inr (.inr ⟨hh, by simpa using h2, ?_⟩)
      unfold coreStep at h
      rwa [if_neg (by simp [hh])] at h

/-- An interrupt is nothing, or one instruction run with IE cleared (R282). -/
theorem interrupt_cases {op : Byte} {s t : State} (h : interrupt op s = .next t) :
    (s.ie = false ∧ t = s) ∨ (s.ie = true ∧ executeOpcode op s.acceptInterrupt = .next t) := by
  unfold interrupt at h
  split at h
  · next hi => exact .inr ⟨hi, h⟩
  · next hi => exact .inl ⟨by simpa using hi, (Host.Outcome.next.inj h).symm⟩

/-- What the decoder reads from three bytes is what the fetch reads. -/
theorem decodeOp_of_decode {op b1 b2 : Byte} {i : Instr} {rest : List Byte}
    (h : decode [op, b1, b2] = .ok (i, rest)) : decodeOp op b1 b2 = i := by
  simp only [decode, List.getD_cons_zero, List.getD_cons_succ] at h
  split at h
  · simp only [Except.ok.injEq, Prod.mk.injEq] at h
    exact h.1
  · simp at h

/-! ## What any instruction leaves as it was -/

/-- No instruction breaks the canonical form of memory. -/
theorem exec_mem_wf {i : Instr} {s t : State} (e : exec i s = .next t) (h : Memory.wf s.mem = true) :
    Memory.wf t.mem = true := by
  cases i
  all_goals (obtain rfl := Host.Outcome.next.inj e; clear e)
  case movMR | mviM | sta | stax | inrM | dcrM => exact State.writeByte_wf _ _ h
  case shld | xthl => exact State.writeWord_wf _ _ h
  case push | pushPsw | call | rst => exact State.push16_wf _ h
  case cnz | cz | cnc | cc | cpo | cpe | cp | cm =>
    simp only [State.callIf]
    split
    · exact State.push16_wf _ h
    · exact h
  case jnz | jz | jnc | jc | jpo | jpe | jp | jm => simp only [State.jumpIf]; split <;> exact h
  case rnz | rz | rnc | rc | rpo | rpe | rp | rm => simp only [State.returnIf]; split <;> exact h
  all_goals first | exact h | simpa using h

/-- No instruction writes the dispatcher's state or a parameter. -/
theorem exec_disp_cfg {i : Instr} {s t : State} (e : exec i s = .next t) : t.disp = s.disp ∧ t.cfg = s.cfg := by
  cases i
  all_goals (obtain rfl := Host.Outcome.next.inj e; clear e)
  case cnz | cz | cnc | cc | cpo | cpe | cp | cm => simp only [State.callIf]; split <;> exact ⟨rfl, rfl⟩
  case jnz | jz | jnc | jc | jpo | jpe | jp | jm => simp only [State.jumpIf]; split <;> exact ⟨rfl, rfl⟩
  case rnz | rz | rnc | rc | rpo | rpe | rp | rm => simp only [State.returnIf]; split <;> exact ⟨rfl, rfl⟩
  all_goals first | exact ⟨rfl, rfl⟩ | (constructor <;> simp)

/-! ## The default cycle table -/

theorem cyclesRows0to3_length : cyclesRows0to3.length = 64 := rfl
theorem cyclesRows4to7_length : cyclesRows4to7.length = 64 := rfl
theorem cyclesRows8toB_length : cyclesRows8toB.length = 64 := rfl
theorem cyclesRowsCtoF_length : cyclesRowsCtoF.length = 64 := rfl

/-- The default table has an entry for each opcode (R308). -/
theorem cyclesDefault_length : cyclesDefault.length = 256 := by
  simp only [cyclesDefault, List.length_append, cyclesRows0to3_length, cyclesRows4to7_length, cyclesRows8toB_length,
    cyclesRowsCtoF_length]

end Sys2Proof.Machine
end

