-- ==== Sys2Proof/Tests/Slice0.lean ====
section
/-! SUPPORT. The model's own tests: decoding of bytes written out from the map of `30_encoding.md` R77, one step of an
instruction against a row of `95_test_vectors.md`, and, for every statement with hypotheses, a state that meets them. -/

namespace Sys2Proof.Tests

open Sys2Proof.Machine Sys2Proof.Safety

/-! ## Helpers -/

/-- Flags in the order of the vectors: S Z AC P CY. -/
def fl (sign zero auxCarry parity carry : Bool) : Flags := ⟨sign, zero, auxCarry, parity, carry⟩

/-- Does the outcome hold a next state with the property? -/
def nextIs (r : Result) (p : State → Bool) : Bool :=
  match r with
  | .next t => p t
  | .fault _ => false
  | .refused _ => false

/-- The reset state with PC at 0100 and SP at 0400. -/
def base : State := { State.reset with pc := 0x0100#16, sp := 0x0400#16 }

/-- One step of the instruction with the given bits, from a state. -/
def runs (s : State) (nbits w : Nat) (p : State → Bool) : Bool := nextIs (step (s.withFetchWord nbits w)) p

/-- A state with A and B given. -/
def ab (x y : Byte) : State := { base with a := x, b := y }

/-- A state with HL at 0200 and the byte there given. -/
def hlByte (v : Byte) : State := { base with h := 0x02#8, mem := Memory.put 0x0200 v [] }

/-! ## Well-formedness: the one check and terms it refuses (R78) -/

theorem test_wellFormed_accepts_undefined : undefinedOpcodes.all (fun op => (Instr.undef op).wellFormed) = true := by decide
theorem test_wellFormed_refuses_nop_as_undefined : (Instr.undef 0x00#8).wellFormed = false := by decide
theorem test_wellFormed_refuses_jmp_as_undefined : (Instr.undef 0xC3#8).wellFormed = false := by decide

/-! ## Decoding: bytes written out from the map of R77, every constructor -/

theorem test_decode_moves :
    decode [0b01000111#8] = .ok (.movRR .b .a, []) ∧
    decode [0b01111101#8] = .ok (.movRR .a .l, []) ∧
    decode [0b01100110#8] = .ok (.movRM .h, []) ∧
    decode [0b01110100#8] = .ok (.movMR .h, []) ∧
    decode [0b00111110#8, 0x05#8] = .ok (.mviR .a 0x05#8, []) ∧
    decode [0b00110110#8, 0xFF#8] = .ok (.mviM 0xFF#8, []) ∧
    decode [0b00110001#8, 0x00#8, 0x04#8] = .ok (.lxi .sp 0x0400#16, []) := by decide

theorem test_decode_loads_and_stores_1 :
    decode [0x3A#8, 0x00#8, 0x03#8] = .ok (.lda 0x0300#16, []) ∧
    decode [0x32#8, 0x00#8, 0x03#8] = .ok (.sta 0x0300#16, []) ∧
    decode [0x2A#8, 0x5B#8, 0x02#8] = .ok (.lhld 0x025B#16, []) ∧
    decode [0x22#8, 0xFF#8, 0xFF#8] = .ok (.shld 0xFFFF#16, []) ∧
    decode [0b00001010#8] = .ok (.ldax .bc, []) := by decide

theorem test_decode_loads_and_stores_2 :
    decode [0b00011010#8] = .ok (.ldax .de, []) ∧
    decode [0b00000010#8] = .ok (.stax .bc, []) ∧
    decode [0b00010010#8] = .ok (.stax .de, []) ∧
    decode [0b11101011#8] = .ok (.xchg, []) := by decide

theorem test_decode_add_and_subtract_1 :
    decode [0b10000000#8] = .ok (.addR .b, []) ∧
    decode [0b10000110#8] = .ok (.addM, []) ∧
    decode [0b11000110#8, 0x42#8] = .ok (.adi 0x42#8, []) ∧
    decode [0b10001001#8] = .ok (.adcR .c, []) ∧
    decode [0b10001110#8] = .ok (.adcM, []) ∧
    decode [0b11001110#8, 0x42#8] = .ok (.aci 0x42#8, []) ∧
    decode [0b10010111#8] = .ok (.subR .a, []) ∧
    decode [0b10010110#8] = .ok (.subM, []) := by decide

theorem test_decode_add_and_subtract_2 :
    decode [0b11010110#8, 0x01#8] = .ok (.sui 0x01#8, []) ∧
    decode [0b10011101#8] = .ok (.sbbR .l, []) ∧
    decode [0b10011110#8] = .ok (.sbbM, []) ∧
    decode [0b11011110#8, 0x01#8] = .ok (.sbi 0x01#8, []) ∧
    decode [0b10111000#8] = .ok (.cmpR .b, []) ∧
    decode [0b10111110#8] = .ok (.cmpM, []) ∧
    decode [0b11111110#8, 0x40#8] = .ok (.cpi 0x40#8, []) := by decide

theorem test_decode_increments_and_pairs_1 :
    decode [0b00000100#8] = .ok (.inrR .b, []) ∧
    decode [0b00110100#8] = .ok (.inrM, []) ∧
    decode [0b00111101#8] = .ok (.dcrR .a, []) ∧
    decode [0b00110101#8] = .ok (.dcrM, []) ∧
    decode [0b00100011#8] = .ok (.inx .hl, []) := by decide

theorem test_decode_increments_and_pairs_2 :
    decode [0b00110011#8] = .ok (.inx .sp, []) ∧
    decode [0b00001011#8] = .ok (.dcx .bc, []) ∧
    decode [0b00011001#8] = .ok (.dad .de, []) ∧
    decode [0b00100111#8] = .ok (.daa, []) := by decide

theorem test_decode_logic_and_rotates_1 :
    decode [0b10100000#8] = .ok (.anaR .b, []) ∧
    decode [0b10100110#8] = .ok (.anaM, []) ∧
    decode [0b11100110#8, 0x0F#8] = .ok (.ani 0x0F#8, []) ∧
    decode [0b10101111#8] = .ok (.xraR .a, []) ∧
    decode [0b10101110#8] = .ok (.xraM, []) ∧
    decode [0b11101110#8, 0x81#8] = .ok (.xri 0x81#8, []) ∧
    decode [0b10110010#8] = .ok (.oraR .d, []) ∧
    decode [0b10110110#8] = .ok (.oraM, []) := by decide

theorem test_decode_logic_and_rotates_2 :
    decode [0b11110110#8, 0x0F#8] = .ok (.ori 0x0F#8, []) ∧
    decode [0b00000111#8] = .ok (.rlc, []) ∧
    decode [0b00001111#8] = .ok (.rrc, []) ∧
    decode [0b00010111#8] = .ok (.ral, []) ∧
    decode [0b00011111#8] = .ok (.rar, []) ∧
    decode [0b00101111#8] = .ok (.cma, []) ∧
    decode [0b00110111#8] = .ok (.stc, []) ∧
    decode [0b00111111#8] = .ok (.cmc, []) := by decide

theorem test_decode_jumps_1 :
    decode [0b11000011#8, 0x34#8, 0x12#8] = .ok (.jmp 0x1234#16, []) ∧
    decode [0b11000010#8, 0x00#8, 0x02#8] = .ok (.jnz 0x0200#16, []) ∧
    decode [0b11001010#8, 0x00#8, 0x02#8] = .ok (.jz 0x0200#16, []) ∧
    decode [0b11010010#8, 0x00#8, 0x02#8] = .ok (.jnc 0x0200#16, []) ∧
    decode [0b11011010#8, 0x00#8, 0x02#8] = .ok (.jc 0x0200#16, []) := by decide

theorem test_decode_jumps_2 :
    decode [0b11100010#8, 0x00#8, 0x02#8] = .ok (.jpo 0x0200#16, []) ∧
    decode [0b11101010#8, 0x00#8, 0x02#8] = .ok (.jpe 0x0200#16, []) ∧
    decode [0b11110010#8, 0x00#8, 0x02#8] = .ok (.jp 0x0200#16, []) ∧
    decode [0b11111010#8, 0x00#8, 0x02#8] = .ok (.jm 0x0200#16, []) ∧
    decode [0b11101001#8] = .ok (.pchl, []) := by decide

theorem test_decode_calls_1 :
    decode [0b11001101#8, 0x10#8, 0x01#8] = .ok (.call 0x0110#16, []) ∧
    decode [0b11000100#8, 0x00#8, 0x20#8] = .ok (.cnz 0x2000#16, []) ∧
    decode [0b11001100#8, 0x00#8, 0x20#8] = .ok (.cz 0x2000#16, []) ∧
    decode [0b11010100#8, 0x00#8, 0x20#8] = .ok (.cnc 0x2000#16, []) ∧
    decode [0b11011100#8, 0x00#8, 0x20#8] = .ok (.cc 0x2000#16, []) ∧
    decode [0b11100100#8, 0x00#8, 0x20#8] = .ok (.cpo 0x2000#16, []) := by decide

theorem test_decode_calls_2 :
    decode [0b11101100#8, 0x00#8, 0x20#8] = .ok (.cpe 0x2000#16, []) ∧
    decode [0b11110100#8, 0x00#8, 0x20#8] = .ok (.cp 0x2000#16, []) ∧
    decode [0b11111100#8, 0x00#8, 0x20#8] = .ok (.cm 0x2000#16, []) ∧
    decode [0b11101111#8] = .ok (.rst 5#3, []) ∧
    decode [0b11000111#8] = .ok (.rst 0#3, []) := by decide

theorem test_decode_returns_1 :
    decode [0b11001001#8] = .ok (.ret, []) ∧
    decode [0b11000000#8] = .ok (.rnz, []) ∧
    decode [0b11001000#8] = .ok (.rz, []) ∧
    decode [0b11010000#8] = .ok (.rnc, []) ∧
    decode [0b11011000#8] = .ok (.rc, []) := by decide

theorem test_decode_returns_2 :
    decode [0b11100000#8] = .ok (.rpo, []) ∧
    decode [0b11101000#8] = .ok (.rpe, []) ∧
    decode [0b11110000#8] = .ok (.rp, []) ∧
    decode [0b11111000#8] = .ok (.rm, []) := by decide

theorem test_decode_stack_io_control_1 :
    decode [0b11000101#8] = .ok (.push .bc, []) ∧
    decode [0b11110101#8] = .ok (.pushPsw, []) ∧
    decode [0b11010001#8] = .ok (.pop .de, []) ∧
    decode [0b11110001#8] = .ok (.popPsw, []) ∧
    decode [0b11100011#8] = .ok (.xthl, []) ∧
    decode [0b11111001#8] = .ok (.sphl, []) ∧
    decode [0b11011011#8, 0x10#8] = .ok (.inp 0x10#8, []) := by decide

theorem test_decode_stack_io_control_2 :
    decode [0b11010011#8, 0x01#8] = .ok (.outp 0x01#8, []) ∧
    decode [0b11111011#8] = .ok (.ei, []) ∧
    decode [0b11110011#8] = .ok (.di, []) ∧
    decode [0b01110110#8] = .ok (.hlt, []) ∧
    decode [0b00000000#8] = .ok (.nop, []) ∧
    decode [0b11011101#8] = .ok (.undef 0xDD#8, []) := by decide

/-- The bytes after an instruction are left; an operand that is not there is an error, by name. -/
theorem test_decode_rest_and_missing_operand :
    decode [0xCA#8, 0x00#8, 0x02#8, 0x76#8] = .ok (.jz 0x0200#16, [0x76#8]) ∧
    decode [0xCA#8, 0x00#8] = .error (.missingOperand 0xCA#8) ∧ decode [] = .error .noOpcode := by decide

/-! ## One step of an instruction, rows of `95_test_vectors.md` sections 2.2 to 2.6 -/

theorem test_add_b :
    runs (ab 0x05#8 0x03#8) 8 0x80
      (fun t => t.a == 0x08#8 && t.flags == fl false false false false false && t.pc == 0x0101#16 && t.total == 4) = true := by decide

theorem test_add_a_carry :
    runs (ab 0x80#8 0x00#8) 8 0x87
      (fun t => t.a == 0x00#8 && t.flags == fl false true false true true) = true := by decide

theorem test_add_m :
    runs { hlByte 0xC4#8 with a := 0x3C#8 } 8 0x86
      (fun t => t.a == 0x00#8 && t.flags == fl false true true true true && t.total == 7) = true := by decide

theorem test_adc_b :
    runs { ab 0xFF#8 0x00#8 with flags := fl false false false false true } 8 0x88
      (fun t => t.a == 0x00#8 && t.flags == fl false true true true true) = true := by decide

theorem test_adi :
    runs (ab 0x3D#8 0x00#8) 16 0x42C6
      (fun t => t.a == 0x7F#8 && t.flags == fl false false false false false && t.pc == 0x0102#16) = true := by decide

theorem test_aci :
    runs { ab 0x14#8 0x00#8 with flags := fl false false false false true } 16 0x42CE
      (fun t => t.a == 0x57#8 && t.flags == fl false false false false false) = true := by decide

theorem test_sub_a :
    runs { ab 0x3E#8 0x00#8 with flags := fl false false false false true } 8 0x97
      (fun t => t.a == 0x00#8 && t.flags == fl false true false true false) = true := by decide

theorem test_sbb_b :
    runs { ab 0x00#8 0xFF#8 with flags := fl false false false false true } 8 0x98
      (fun t => t.a == 0x00#8 && t.flags == fl false true true true true) = true := by decide

theorem test_sui :
    runs (ab 0x00#8 0x00#8) 16 0x01D6
      (fun t => t.a == 0xFF#8 && t.flags == fl true false true true true) = true := by decide

theorem test_sbi :
    runs { ab 0x00#8 0x00#8 with flags := fl false false false false true } 16 0x01DE
      (fun t => t.a == 0xFE#8 && t.flags == fl true false true false true) = true := by decide

theorem test_cmp_b_below :
    runs (ab 0x02#8 0x05#8) 8 0xB8
      (fun t => t.a == 0x02#8 && t.flags == fl true false true false true) = true := by decide

theorem test_cmp_b_equal :
    runs (ab 0x05#8 0x05#8) 8 0xB8
      (fun t => t.a == 0x05#8 && t.flags == fl false true false true false) = true := by decide

theorem test_cpi :
    runs (ab 0x7F#8 0x00#8) 16 0x80FE
      (fun t => t.a == 0x7F#8 && t.flags == fl true false false true true) = true := by decide

theorem test_inr_b_wraps :
    runs { ab 0x00#8 0xFF#8 with flags := fl false false false false true } 8 0x04
      (fun t => t.b == 0x00#8 && t.flags == fl false true true true true) = true := by decide

theorem test_inr_m :
    runs { hlByte 0xFF#8 with flags := fl false false false false true } 8 0x34
      (fun t => t.readByte 0x0200#16 == 0x00#8 && t.flags == fl false true true true true && t.total == 10) = true := by decide

theorem test_dcr_b_wraps :
    runs { ab 0x00#8 0x00#8 with flags := fl false false false false true } 8 0x05
      (fun t => t.b == 0xFF#8 && t.flags == fl true false true true true) = true := by decide

theorem test_dcr_b_80 :
    runs { ab 0x00#8 0x80#8 with flags := fl false false false false true } 8 0x05
      (fun t => t.b == 0x7F#8 && t.flags == fl false false true false true) = true := by decide

theorem test_dcr_m :
    runs (hlByte 0x10#8) 8 0x35
      (fun t => t.readByte 0x0200#16 == 0x0F#8 && t.flags == fl false false true true false) = true := by decide

theorem test_inx_h_wraps :
    runs { base with h := 0xFF#8, l := 0xFF#8, flags := fl false true false false false } 8 0x23
      (fun t => t.hl == 0x0000#16 && t.flags == fl false true false false false) = true := by decide

theorem test_dcx_b_wraps :
    runs base 8 0x0B
      (fun t => t.bc == 0xFFFF#16 && t.flags == fl false false false false false) = true := by decide

theorem test_dad_d_carry :
    runs { base with l := 0x01#8, d := 0xFF#8, e := 0xFF#8, flags := fl false true false false false } 8 0x19
      (fun t => t.hl == 0x0000#16 && t.flags == fl false true false false true) = true := by decide

theorem test_dad_sp :
    runs { base with h := 0x10#8, sp := 0xF000#16 } 8 0x39
      (fun t => t.hl == 0x0000#16 && t.sp == 0xF000#16 && t.flags == fl false false false false true) = true := by decide

theorem test_daa_9a :
    runs (ab 0x9A#8 0x00#8) 8 0x27
      (fun t => t.a == 0x00#8 && t.flags == fl false true true true true) = true := by decide

theorem test_daa_carry_in :
    runs { ab 0x00#8 0x00#8 with flags := fl false false false false true } 8 0x27
      (fun t => t.a == 0x60#8 && t.flags == fl false false false true true) = true := by decide

theorem test_ana_b :
    runs { ab 0xF0#8 0x0F#8 with flags := fl false false false false true } 8 0xA0
      (fun t => t.a == 0x00#8 && t.flags == fl false true true true false) = true := by decide

theorem test_ani :
    runs { ab 0x3A#8 0x00#8 with flags := fl false false false false true } 16 0x0FE6
      (fun t => t.a == 0x0A#8 && t.flags == fl false false true true false) = true := by decide

theorem test_xra_a :
    runs { ab 0x5A#8 0x00#8 with flags := fl false false true false true } 8 0xAF
      (fun t => t.a == 0x00#8 && t.flags == fl false true false true false) = true := by decide

theorem test_xri :
    runs { ab 0x3B#8 0x00#8 with flags := fl false false false false true } 16 0x81EE
      (fun t => t.a == 0xBA#8 && t.flags == fl true false false false false) = true := by decide

theorem test_ora_b :
    runs (ab 0xF0#8 0x0F#8) 8 0xB0
      (fun t => t.a == 0xFF#8 && t.flags == fl true false false true false) = true := by decide

theorem test_ori :
    runs { ab 0xB5#8 0x00#8 with flags := fl false false false false true } 16 0x0FF6
      (fun t => t.a == 0xBF#8 && t.flags == fl true false false false false) = true := by decide

theorem test_rlc :
    runs (ab 0xF2#8 0x00#8) 8 0x07
      (fun t => t.a == 0xE5#8 && t.flags == fl false false false false true) = true := by decide

theorem test_rrc :
    runs { ab 0xF2#8 0x00#8 with flags := fl false false false false true } 8 0x0F
      (fun t => t.a == 0x79#8 && t.flags == fl false false false false false) = true := by decide

theorem test_ral :
    runs { ab 0x6A#8 0x00#8 with flags := fl false false false false true } 8 0x17
      (fun t => t.a == 0xD5#8 && t.flags == fl false false false false false) = true := by decide

theorem test_rar :
    runs { ab 0x80#8 0x00#8 with flags := fl false false false false true } 8 0x1F
      (fun t => t.a == 0xC0#8 && t.flags == fl false false false false false) = true := by decide

theorem test_cma :
    runs (ab 0x51#8 0x00#8) 8 0x2F
      (fun t => t.a == 0xAE#8 && t.flags == fl false false false false false) = true := by decide

theorem test_stc : runs base 8 0x37 (fun t => t.flags == fl false false false false true) = true := by decide

theorem test_cmc :
    runs { ab 0x00#8 0x00#8 with flags := fl false false false false true } 8 0x3F
      (fun t => t.flags == fl false false false false false) = true := by decide

theorem test_jmp_straddles_the_top :
    runs { base with pc := 0xFFFE#16 } 24 0x1234C3
      (fun t => t.pc == 0x1234#16 && t.total == 10) = true := by decide

theorem test_jz_not_taken : runs base 24 0x0200CA (fun t => t.pc == 0x0103#16) = true := by decide

theorem test_jz_taken :
    runs { base with flags := fl false true false false false } 24 0x0200CA
      (fun t => t.pc == 0x0200#16) = true := by decide

theorem test_jpo_taken : runs base 24 0x0200E2 (fun t => t.pc == 0x0200#16) = true := by decide

theorem test_jm_not_taken : runs base 24 0x0200FA (fun t => t.pc == 0x0103#16) = true := by decide

theorem test_call :
    runs { base with pc := 0x010A#16 } 24 0x0110CD
      (fun t => t.pc == 0x0110#16 && t.sp == 0x03FE#16 && t.readByte 0x03FF#16 == 0x01#8 && t.readByte 0x03FE#16 == 0x0D#8) = true := by decide

theorem test_cc_not_taken :
    runs base 24 0x2000DC
      (fun t => t.pc == 0x0103#16 && t.sp == 0x0400#16 && t.readByte 0x03FE#16 == 0x00#8) = true := by decide

theorem test_cm_taken :
    runs { base with flags := fl true false false false false } 24 0x2000FC
      (fun t => t.pc == 0x2000#16 && t.sp == 0x03FE#16 && t.readByte 0x03FF#16 == 0x01#8 && t.readByte 0x03FE#16 == 0x03#8) = true := by decide

theorem test_ret :
    runs { base with sp := 0x03FE#16, mem := [(0x03FE, 0x0D#8), (0x03FF, 0x01#8)] } 8 0xC9
      (fun t => t.pc == 0x010D#16 && t.sp == 0x0400#16) = true := by decide

theorem test_rnz_not_taken :
    runs { base with sp := 0x03FE#16, mem := [(0x03FE, 0x0D#8), (0x03FF, 0x01#8)], flags := fl false true false false false } 8 0xC0
      (fun t => t.pc == 0x0101#16 && t.sp == 0x03FE#16 && t.total == 11) = true := by decide

theorem test_rst_5 :
    runs { base with pc := 0x1234#16 } 8 0xEF
      (fun t => t.pc == 0x0028#16 && t.sp == 0x03FE#16 && t.readByte 0x03FF#16 == 0x12#8 && t.readByte 0x03FE#16 == 0x35#8) = true := by decide

theorem test_rst_0_at_the_top :
    runs { base with pc := 0xFFFF#16 } 8 0xC7
      (fun t => t.pc == 0x0000#16 && t.sp == 0x03FE#16 && t.readByte 0x03FF#16 == 0x00#8 && t.readByte 0x03FE#16 == 0x00#8) = true := by decide

theorem test_pchl : runs { base with h := 0x41#8, l := 0x3E#8 } 8 0xE9 (fun t => t.pc == 0x413E#16) = true := by decide

theorem test_push_b_wraps :
    runs { base with b := 0x12#8, c := 0x34#8, sp := 0x0000#16 } 8 0xC5
      (fun t => t.readByte 0xFFFF#16 == 0x12#8 && t.readByte 0xFFFE#16 == 0x34#8 && t.sp == 0xFFFE#16) = true := by decide

theorem test_push_psw :
    runs { base with a := 0x1F#8, flags := fl false true false true true, sp := 0x2000#16 } 8 0xF5
      (fun t => t.readByte 0x1FFF#16 == 0x1F#8 && t.readByte 0x1FFE#16 == 0x47#8 && t.sp == 0x1FFE#16) = true := by decide

theorem test_pop_d_wraps :
    runs { base with sp := 0xFFFF#16, mem := [(0x0000, 0xAB#8), (0xFFFF, 0xCD#8)] } 8 0xD1
      (fun t => t.d == 0xAB#8 && t.e == 0xCD#8 && t.sp == 0x0001#16) = true := by decide

theorem test_pop_psw :
    runs { base with sp := 0x2000#16, mem := [(0x2000, 0xC3#8), (0x2001, 0x77#8)] } 8 0xF1
      (fun t => t.a == 0x77#8 && t.flags == fl true true true false true && t.sp == 0x2002#16) = true := by decide

theorem test_pop_psw_drops_bits :
    runs { base with mem := [(0x0400, 0x28#8)] } 8 0xF1
      (fun t => t.flags == fl false false true false false && flagByte t.flags == 0x12#8) = true := by decide

theorem test_xthl :
    runs { base with sp := 0x10AD#16, h := 0x0B#8, l := 0x3C#8, mem := [(0x10AD, 0xF0#8), (0x10AE, 0x0D#8)] } 8 0xE3
      (fun t => t.hl == 0x0DF0#16 && t.readByte 0x10AD#16 == 0x3C#8 && t.readByte 0x10AE#16 == 0x0B#8 && t.sp == 0x10AD#16) = true := by decide

theorem test_sphl : runs { base with h := 0x50#8, l := 0x6C#8 } 8 0xF9 (fun t => t.sp == 0x506C#16) = true := by decide

theorem test_in :
    runs { base with inputs := { base.inputs with portIn := [0x5A#8] } } 16 0x10DB
      (fun t => t.a == 0x5A#8 && t.pc == 0x0102#16 && t.inputs.portDraws == 1) = true := by decide

theorem test_out :
    runs { base with a := 0x41#8 } 16 0x01D3
      (fun t => t.a == 0x41#8 && t.trace == [.outPort 0x01#8 0x41#8]) = true := by decide

theorem test_ei : runs base 8 0xFB (fun t => t.ie) = true := by decide

theorem test_di : runs { base with ie := true } 8 0xF3 (fun t => !t.ie) = true := by decide

theorem test_hlt :
    runs { base with pc := 0x0105#16 } 8 0x76
      (fun t => t.halted && t.pc == 0x0106#16 && t.trace == [.haltEvent] && t.total == 7) = true := by decide

theorem test_nop : runs base 8 0x00 (fun t => t.pc == 0x0101#16 && t.total == 4) = true := by decide

theorem test_undef_cb :
    runs base 24 0x0200CB
      (fun t => t.pc == 0x0101#16 && t.sp == 0x0400#16 && t.readByte 0x03FE#16 == 0x00#8) = true := by decide

theorem test_mov_b_a :
    runs { base with a := 0xFF#8 } 8 0x47
      (fun t => t.b == 0xFF#8 && t.total == 5) = true := by decide

theorem test_mov_h_m : runs (hlByte 0x7B#8) 8 0x66 (fun t => t.h == 0x7B#8 && t.l == 0x00#8) = true := by decide

theorem test_mov_m_h :
    runs { base with h := 0x02#8, l := 0x10#8 } 8 0x74
      (fun t => t.readByte 0x0210#16 == 0x02#8) = true := by decide

theorem test_mvi_a : runs base 16 0x053E (fun t => t.a == 0x05#8 && t.pc == 0x0102#16) = true := by decide

theorem test_mvi_m :
    runs { base with h := 0x02#8 } 16 0xFF36
      (fun t => t.readByte 0x0200#16 == 0xFF#8) = true := by decide

theorem test_lxi_h_straddles_the_top :
    runs { base with pc := 0xFFFF#16 } 24 0x123421
      (fun t => t.hl == 0x1234#16 && t.pc == 0x0002#16) = true := by decide

theorem test_lda :
    runs { base with mem := [(0x0300, 0x50#8)] } 24 0x03003A
      (fun t => t.a == 0x50#8 && t.total == 13) = true := by decide

theorem test_sta :
    runs { base with a := 0x50#8 } 24 0x030032
      (fun t => t.readByte 0x0300#16 == 0x50#8) = true := by decide

theorem test_lhld :
    runs { base with mem := [(0x025B, 0xFF#8), (0x025C, 0x03#8)] } 24 0x025B2A
      (fun t => t.l == 0xFF#8 && t.h == 0x03#8) = true := by decide

theorem test_shld_wraps :
    runs { base with h := 0xAE#8, l := 0x29#8 } 24 0xFFFF22
      (fun t => t.readByte 0xFFFF#16 == 0x29#8 && t.readByte 0x0000#16 == 0xAE#8) = true := by decide

theorem test_ldax_d :
    runs { base with d := 0x93#8, e := 0x8B#8, mem := [(0x938B, 0x44#8)] } 8 0x1A
      (fun t => t.a == 0x44#8) = true := by decide

theorem test_stax_b :
    runs { base with b := 0x3F#8, c := 0x16#8, a := 0x9C#8 } 8 0x02
      (fun t => t.readByte 0x3F16#16 == 0x9C#8) = true := by decide

theorem test_xchg :
    runs { base with h := 0x00#8, l := 0xFF#8, d := 0x33#8, e := 0x55#8 } 8 0xEB
      (fun t => t.hl == 0x3355#16 && t.de == 0x00FF#16) = true := by decide

/-! ## Interrupt injection, rows of section 2.7 -/

/-- PC at 1234, SP at 8000, IE set, an interrupt scheduled. -/
def interrupted (op : Byte) : State :=
  { base with pc := 0x1234#16, sp := 0x8000#16, ie := true, schedule := [.interrupt op] }

theorem test_interrupt_rst7 : nextIs (step (interrupted 0xFF#8)) (fun t =>
    t.pc == 0x0038#16 && t.sp == 0x7FFE#16 && !t.ie && t.readByte 0x7FFF#16 == 0x12#8 && t.readByte 0x7FFE#16 == 0x34#8) =
    true := by decide
theorem test_interrupt_rst7_while_halted : nextIs (step { interrupted 0xFF#8 with halted := true }) (fun t =>
    t.pc == 0x0038#16 && t.halted && !t.ie) = true := by decide
theorem test_interrupt_call_takes_operands_at_pc :
    nextIs (step { interrupted 0xCD#8 with mem := [(0x1235, 0x30#8)] }) (fun t =>
      t.pc == 0x3000#16 && t.readByte 0x7FFF#16 == 0x12#8 && t.readByte 0x7FFE#16 == 0x36#8) = true := by decide
theorem test_interrupt_ei_leaves_ie_set : nextIs (step (interrupted 0xFB#8)) (fun t => t.ie) = true := by decide
theorem test_interrupt_without_ie : step { interrupted 0xFF#8 with ie := false } =
    .next { interrupted 0xFF#8 with ie := false, schedule := [] } := rfl

/-! ## The dispatcher, rows of section 2.8, and program P4's call -/

/-- "ABC     TXT". -/
def abcKey : List Byte := [0x41#8, 0x42#8, 0x43#8, 0x20#8, 0x20#8, 0x20#8, 0x20#8, 0x20#8, 0x54#8, 0x58#8, 0x54#8]

/-- "XYZ     TXT". -/
def xyzKey : List Byte := [0x58#8, 0x59#8, 0x5A#8, 0x20#8, 0x20#8, 0x20#8, 0x20#8, 0x20#8, 0x54#8, 0x58#8, 0x54#8]

/-- ABC.TXT's 130 bytes, numbered 00 to 81. -/
def abcBlob : List Byte := (List.range 130).map (BitVec.ofNat 8)

/-- The two files, and a control block at 0300 that names the given one, its cursor as given. -/
def disk (name : List Byte) (cursor : Byte) : State :=
  ({ base with disp := { base.disp with files := [⟨0, abcKey, abcBlob⟩, ⟨0, xyzKey, []⟩] } }.writeBytes
    0x0301#16 name).writeByte 0x0320#16 cursor

/-- Does function `fn` at the control block answer `res` and leave a state with the property? -/
def calls (fn : Nat) (s : State) (res : Word) (p : State → Bool) : Bool :=
  (execute fn 0#16 0x0300#16 0#16 s).1 == res && p (execute fn 0#16 0x0300#16 0#16 s).2

set_option maxRecDepth 4000 in
theorem test_open_lower_case : calls 15
    (disk [0x61#8, 0x62#8, 0x63#8, 0x20#8, 0x20#8, 0x20#8, 0x20#8, 0x20#8, 0x74#8, 0x78#8, 0x74#8] 0x07#8) 0x0000#16
    (fun t => t.readByte 0x030F#16 == 0x02#8 && t.readByte 0x0320#16 == 0x00#8) = true := by decide
theorem test_search_with_star : calls 17
    (disk [0x41#8, 0x2A#8, 0x20#8, 0x20#8, 0x20#8, 0x20#8, 0x20#8, 0x20#8, 0x54#8, 0x58#8, 0x54#8] 0x00#8) 0x0000#16
    (fun t => t.readBytes 0x0080#16 32 == directoryEntry abcKey) = true := by decide
theorem test_search_no_match : calls 17
    (disk [0x51#8, 0x2A#8, 0x20#8, 0x20#8, 0x20#8, 0x20#8, 0x20#8, 0x20#8, 0x2A#8, 0x20#8, 0x20#8] 0x00#8) 0xFFFF#16
    (fun _ => true) = true := by decide
set_option maxRecDepth 4000 in
theorem test_read_second_record : calls 20 (disk abcKey 0x01#8) 0x0000#16 (fun t =>
    t.readBytes 0x0080#16 3 == [0x80#8, 0x81#8, 0x1A#8] && t.readByte 0x00FF#16 == 0x1A#8 &&
      t.readByte 0x0320#16 == 0x02#8) = true := by decide
set_option maxRecDepth 4000 in
theorem test_read_past_the_end : calls 20 (disk abcKey 0x02#8) 0x0001#16 (fun t => t.readByte 0x0320#16 == 0x02#8) = true := by
  decide
theorem test_delete : calls 19 (disk xyzKey 0x00#8) 0x0000#16 (fun t => t.disp.files == [⟨0, abcKey, abcBlob⟩]) = true := by
  decide

/-- A line is ready, and the buffer at 0300 takes at most `max` characters. -/
def lineReady (max : Byte) (line : List Byte) : State :=
  { base.writeByte 0x0300#16 max with inputs := { base.inputs with lineIn := [line] } }

/-- "HELLOWORLD" and a carriage return. -/
def helloWorld : List Byte :=
  [0x48#8, 0x45#8, 0x4C#8, 0x4C#8, 0x4F#8, 0x57#8, 0x4F#8, 0x52#8, 0x4C#8, 0x44#8, 0x0D#8]

theorem test_read_line_clamps : calls 10 (lineReady 0x05#8 helloWorld) 0x0000#16 (fun t =>
    t.readBytes 0x0301#16 7 == [0x05#8, 0x48#8, 0x45#8, 0x4C#8, 0x4C#8, 0x4F#8, 0x00#8] &&
      t.trace == [.conOut 0x48#8, .conOut 0x45#8, .conOut 0x4C#8, .conOut 0x4C#8, .conOut 0x4F#8, .conOut 0x0D#8,
        .conOut 0x0A#8]) = true := by decide
theorem test_select_drive_out_of_range : execute 14 0#16 0x0020#16 0#16 base = (0xFFFF#16, base) := rfl
theorem test_set_user_keeps_five_bits :
    (execute 33 0#16 0x00FF#16 0#16 base).2.disp.user = 0x1F#5 := by decide

/-- P4 just after its CALL 0005: function 9 on "HI$" at 010C. -/
def atTrampolineOfP4 : State :=
  { base with
    c := 0x09#8, d := 0x01#8, e := 0x0C#8, pc := 0x0005#16, sp := 0x03FE#16
    mem := [(0x010C, 0x48#8), (0x010D, 0x49#8), (0x010E, 0x24#8), (0x03FE, 0x0B#8), (0x03FF, 0x01#8)] }

theorem test_syscall_of_p4 : nextIs (step atTrampolineOfP4) (fun t =>
    t.pc == 0x010B#16 && t.sp == 0x0400#16 && t.a == 0x00#8 && t.hl == 0x0000#16 &&
      t.trace == [.conOutString [0x48#8, 0x49#8]]) = true := by decide

/-! ## Witnesses: a state and operands that meet the hypotheses of each statement that has some -/

/-- Memory in canonical form, with a byte at each end of the address space. -/
def endsMem : Memory := [(0x0000, 0x01#8), (0xFFFF, 0x02#8)]

/-- A state with that memory, SP at the bottom so that a push wraps. -/
def ends : State := { base with mem := endsMem, sp := 0x0000#16 }

/-- The hypothesis of every statement that asks for canonical memory alone (ByteStoresWriteOneByte,
ShldStoresLowByteFirst, MemoryIncrementKeepsCarry, ReturnResumesAfterTheCall, PushesStoreHighByteAbove,
PushPopPswRestoresAllButAuxCarry, XthlExchangesTheTopOfStack, HostWritesWhatItNames). -/
theorem test_witness_canonical_memory : Memory.wf ends.mem = true := by decide

theorem test_witness_DecodeOfEncodeGivesTheInstructionBack :
    (Instr.undef 0xFD#8).wellFormed = true ∧ (Instr.lxi .sp 0xFFFF#16).wellFormed = true := by decide

/-- JZ 0200 at 0100, and at FFFF, where its operand wraps. -/
theorem test_witness_StepRunsTheInstructionAtPc :
    (∀ s ∈ [{ base with mem := [(0x0100, 0xCA#8), (0x0102, 0x02#8)] },
        { base with pc := 0xFFFF#16, mem := [(0x0001, 0x02#8), (0xFFFF, 0xCA#8)] }],
      s.nextTransition = .run ∧ s.halted = false ∧ s.atTrampoline = false ∧
      decode [s.readByte s.pc, s.readByte (s.pc + 1#16), s.readByte (s.pc + 2#16)] = .ok (.jz 0x0200#16, [])) := by decide

/-- The default table has 256 entries, JZ's being 10, the first's 4 and the last's 11 (R308). -/
theorem test_witness_StepRunsTheInstructionAtPc_table : base.cfg.cycles.length = 256 ∧
    base.cfg.cost 0x00#8 = 4 ∧ base.cfg.cost 0xCA#8 = 10 ∧ base.cfg.cost 0xFF#8 = 11 :=
  ⟨cyclesDefault_length, by decide, by decide, by decide⟩

theorem test_witness_HaltedStepChangesNothing :
    ({ base with halted := true } : State).nextTransition = .run ∧ ({ base with halted := true } : State).halted = true := by
  decide

/-- A state about to fetch one opcode byte. -/
def fetching (op : Byte) : State := { base with mem := Memory.put 0x0100 op [] }

theorem test_fetching (op : Byte) : Fetches (fetching op) op := by
  refine ⟨rfl, rfl, rfl, ?_⟩
  revert op
  decide

theorem test_witness_HaltedIsSetByHltAndClearedByReset :
    ((∃ t, step (fetching 0x76#8) = .next t) ∧ (fetching 0x76#8).halted = false ∧ Fetches (fetching 0x76#8) 0x76#8) ∧
    ((∃ t, step (interrupted 0x76#8) = .next t) ∧ (interrupted 0x76#8).halted = false ∧ Accepts (interrupted 0x76#8) 0x76#8) ∧
    (∃ t, step { base with halted := true, schedule := [.reset] } = .next t) :=
  ⟨⟨⟨_, rfl⟩, rfl, test_fetching _⟩, ⟨⟨_, rfl⟩, rfl, rfl, rfl⟩, ⟨_, rfl⟩⟩

theorem test_witness_InterruptEnableIsWrittenByFour :
    ((∃ t, step (fetching 0xFB#8) = .next t) ∧ (fetching 0xFB#8).ie = false ∧ Fetches (fetching 0xFB#8) 0xFB#8) ∧
    ((∃ t, step { fetching 0xF3#8 with ie := true } = .next t) ∧ Fetches { fetching 0xF3#8 with ie := true } 0xF3#8) ∧
    ((∃ t, step (interrupted 0xFF#8) = .next t) ∧ (interrupted 0xFF#8).ie = true) ∧
    (∃ t, step { base with ie := true, schedule := [.reset] } = .next t) :=
  ⟨⟨⟨_, rfl⟩, rfl, test_fetching _⟩, ⟨⟨_, rfl⟩, test_fetching 0xF3#8⟩, ⟨⟨_, rfl⟩, rfl⟩, ⟨_, rfl⟩⟩

/-- A load of two bytes at FFFF does not fit; one byte there just fits. -/
theorem test_witness_OnlyAnOutOfBoundsLoadHasNoNextState :
    65536 < (0xFFFF#16).toNat + [1#8, 2#8].length ∧
    ¬ ∃ addr bytes, Transition.hostLoad 0xFFFF#16 [1#8] = .hostLoad addr bytes ∧ 65536 < addr.toNat + bytes.length := by
  refine ⟨by decide, ?_⟩
  rintro ⟨addr, bytes, h, hb⟩
  obtain ⟨rfl, rfl⟩ := Transition.hostLoad.inj h
  exact absurd hb (by decide)

/-- The invariant holds of a machine with files, and that machine makes a step. -/
theorem test_witness_EveryStepKeepsTheInvariant :
    Inv (disk abcKey 0x00#8) ∧ ∃ t, step (disk abcKey 0x00#8) = .next t :=
  ⟨⟨by decide, by decide, by decide, cyclesDefault_length⟩, ⟨_, rfl⟩⟩

/-- 99 and 99 and a carry, and 0 and 0. -/
theorem test_witness_AddThenDaaAddsDecimalNumbers :
    (ab (bcd 9 9) 0#8).a = bcd 9 9 ∧ 9 < 10 ∧ (ab (bcd 0 0) 0#8).a = bcd 0 0 := by decide

/-- Canonical memory with each value of each flag the conditional calls and returns test. -/
theorem test_witness_CallsPushTheReturnAddress : ∀ f ∈ [Flags.clear, fl true true true true true],
    Memory.wf ({ ends with flags := f } : State).mem = true ∧
    (f.zero = false ∨ f.zero = true) ∧ f.zero = f.carry ∧ f.carry = f.parity ∧ f.parity = f.sign := by decide

theorem test_witness_ReturnsPopTheProgramCounter :
    ({ ends with flags := Flags.clear } : State).flags.zero = false ∧
    ({ ends with flags := fl true true true true true } : State).flags.sign = true := by decide

theorem test_witness_InDrawsAndOutEmits :
    ({ base with inputs := { base.inputs with portIn := [0x5A#8] } } : State).inputs.portIn = [0x5A#8] ∧
    base.inputs.portIn = [] := by decide

/-- A one-byte and a three-byte opcode, with IE set; and IE clear. -/
theorem test_witness_InterruptRunsTheOpcodeOnlyWhenEnabled :
    (interrupted 0xFF#8).ie = true ∧ decode [0xFF#8, 0x00#8, 0x00#8] = .ok (.rst 7#3, [0x00#8, 0x00#8]) ∧
    decode [0xCD#8, 0x00#8, 0x30#8] = .ok (.call 0x3000#16, []) ∧ base.ie = false := by decide

theorem test_witness_InterruptRestartSavesOnlyPc :
    ({ ends with ie := true } : State).ie = true ∧ Memory.wf ({ ends with ie := true } : State).mem = true := by decide

/-- Two bytes at FFFE just fit; two at FFFF do not. -/
theorem test_witness_LoadThenDumpGivesTheBytes :
    (0xFFFE#16).toNat + [1#8, 2#8].length ≤ 65536 ∧ Memory.wf ends.mem = true ∧
    65536 < (0xFFFF#16).toNat + [1#8, 2#8].length := by decide

theorem test_witness_SyscallDeliversTheResult :
    atTrampolineOfP4.nextTransition = .run ∧ atTrampolineOfP4.halted = false ∧ atTrampolineOfP4.cfg.driver = true ∧
    atTrampolineOfP4.pc = atTrampolineOfP4.cfg.syscallAddr := by decide

theorem test_witness_UnhandledFunctionsAnswerNotFound :
    ∀ fn ∈ [3, 8, 12, 16, 18, 21, 34, 255], fn ∉ [0, 1, 2, 9, 10, 11, 13, 14, 15, 17, 19, 20, 25, 26, 32, 33] := by decide

/-- Drive 15 is the last there is; 16 and FF are none. -/
theorem test_witness_DispatcherRegisterFunctions :
    (0x000F#16).toNat % 256 < base.cfg.numDrives ∧ base.cfg.numDrives ≤ (0x0010#16).toNat % 256 ∧
    base.cfg.numDrives ≤ (0x00FF#16).toNat % 256 := by decide

theorem test_witness_ConsoleCharacterFunctions :
    ({ base with inputs := { base.inputs with conIn := [0x41#8] } } : State).inputs.conIn = [0x41#8] ∧
    base.inputs.conIn = [] := by decide

/-- "HI$"; an empty string; and memory with no `$` in it. -/
theorem test_witness_PrintStringStopsAtTheDollar :
    ((∀ j (h : j < [0x48#8, 0x49#8].length),
        atTrampolineOfP4.readByte (0x010C#16 + BitVec.ofNat 16 j) = [0x48#8, 0x49#8][j] ∧ [0x48#8, 0x49#8][j] ≠ 0x24#8) ∧
      atTrampolineOfP4.readByte (0x010C#16 + BitVec.ofNat 16 2) = 0x24#8) ∧
    atTrampolineOfP4.readByte (0x010E#16 + BitVec.ofNat 16 0) = 0x24#8 ∧
    ((∀ j (h : j < (List.replicate 65536 0#8).length),
        base.readByte (0#16 + BitVec.ofNat 16 j) = (List.replicate 65536 0#8)[j] ∧
          (List.replicate 65536 0#8)[j] ≠ 0x24#8) ∧
      (List.replicate 65536 0#8).length = 65536) := by
  refine ⟨⟨by decide, by decide⟩, by decide, fun j h => ?_, List.length_replicate⟩
  rw [List.getElem_replicate]
  exact ⟨rfl, by decide⟩

/-- HELLOWORLD and a carriage return: 10 characters, clamped to 5, to 10, and to 0. -/
theorem test_witness_ReadLineStoresAndEchoesTheText : ∀ max ∈ [0x05#8, 0x0A#8, 0x00#8],
    Memory.wf (lineReady max helloWorld).mem = true ∧
    (lineReady max helloWorld).lineValue = helloWorld.take 10 ++ [0x0D#8] ∧
    (∀ v ∈ helloWorld.take 10, v ≠ 0x0D#8 ∧ v ≠ 0x0A#8) ∧ [0x0D#8].head? = some 0x0D#8 := by
  intro max h
  refine ⟨?_, rfl, by decide, rfl⟩
  revert max
  decide

/-- A control block that runs past the top of memory, its name holding both ends of the folded range and the byte beside
each; a key's two fields; and a field with `*` and one with `?`, against fields of their length. -/
theorem test_witness_FieldMatchReadsWildcards :
    ({ base with mem := [(0x0000, 0x7A#8), (0x0005, 0x60#8), (0x0006, 0x7B#8), (0xFFFF, 0x61#8)] } : State).fcbKey 0xFFFC#16 =
      [0x00#8, 0x00#8, 0x41#8, 0x5A#8, 0x00#8, 0x00#8, 0x00#8, 0x00#8, 0x60#8, 0x7B#8, 0x00#8] ∧
    (abcKey.take 8).length = 8 ∧ (abcKey.drop 8).length = 3 ∧
    ([0x41#8, 0x2A#8, 0x20#8] : List Byte).length = [0x41#8, 0x42#8, 0x43#8].length ∧
    fieldMatch [0x41#8, 0x2A#8, 0x20#8] [0x41#8, 0x42#8, 0x43#8] = true ∧
    fieldMatch [0x41#8, 0x3F#8, 0x20#8] [0x41#8, 0x42#8, 0x43#8] = false := by decide

/-- A file the drive has, and a name it has not (OpenReportsTheRecordCount, DeleteRemovesOneFile). -/
theorem test_witness_OpenReportsTheRecordCount :
    (Memory.wf (disk abcKey 0x00#8).mem = true ∧
      filesWf (disk abcKey 0x00#8).cfg.numDrives (disk abcKey 0x00#8).disp.files = true ∧
      ∃ x ∈ (disk abcKey 0x00#8).disp.files, x.drive = (disk abcKey 0x00#8).disp.curDrive ∧
        x.key = (disk abcKey 0x00#8).fcbKey 0x0300#16) ∧
    (∀ x ∈ (disk abcKey.reverse 0x00#8).disp.files, x.drive = (disk abcKey.reverse 0x00#8).disp.curDrive →
      x.key ≠ (disk abcKey.reverse 0x00#8).fcbKey 0x0300#16) := by decide

/-- The pattern `????????.???`: both files match and ABC.TXT comes first; its key is as long as the other's and before it. -/
theorem test_witness_SearchWritesTheFirstMatch :
    abcKey.length = xyzKey.length ∧ keyLt abcKey xyzKey = true ∧
    Memory.wf (disk (List.replicate 11 0x3F#8) 0x00#8).mem = true ∧
    filesWf (disk (List.replicate 11 0x3F#8) 0x00#8).cfg.numDrives (disk (List.replicate 11 0x3F#8) 0x00#8).disp.files = true ∧
    keyMatch ((disk (List.replicate 11 0x3F#8) 0x00#8).fcbKey 0x0300#16) abcKey = true ∧
    (∀ y ∈ (disk (List.replicate 11 0x3F#8) 0x00#8).disp.files, keyLt y.key abcKey = false) ∧
    (∀ x ∈ (disk abcKey.reverse 0x00#8).disp.files,
      keyMatch ((disk abcKey.reverse 0x00#8).fcbKey 0x0300#16) x.key = false) := by decide

set_option maxRecDepth 4000 in
/-- ABC.TXT's 130 bytes at cursors 0, 1 (its last record) and 2 (past the end), and the empty XYZ.TXT at cursor 0. -/
theorem test_witness_SequentialReadCopiesOneRecord :
    (∀ cursor ∈ [0x00#8, 0x01#8], ((disk abcKey cursor).readByte (0x0300#16 + 0x20#16)).toNat * 128 < abcBlob.length) ∧
    abcBlob.length ≤ ((disk abcKey 0x02#8).readByte (0x0300#16 + 0x20#16)).toNat * 128 ∧
    ([] : List Byte).length ≤ ((disk xyzKey 0x00#8).readByte (0x0300#16 + 0x20#16)).toNat * 128 := by decide

/-! ## A program's first instruction after reset -/

theorem test_first_instruction_after_reset :
    nextIs (step (State.reset.withFetchWord 16 0x053E)) (fun t => t.a == 0x05#8 && t.pc == 0x0002#16) = true := by decide

theorem test_decodeTableWord : decodeTableWord 24 0x1234C3 = some (.jmp 0x1234#16) ∧ decodeTableWord 8 0x76 = some .hlt := by
  decide

end Sys2Proof.Tests
end

/-! ## Which transitions have a next state -/

section
namespace Sys2Proof.Safety

open Sys2Proof.Machine

/-- Each of the 94 meanings answers `.next`, on every path through it. -/
theorem exec_completes (i : Instr) (s : State) : ∃ t, exec i s = .next t := by
  cases i <;> exact ⟨_, rfl⟩

theorem executeOpcode_completes (op : Byte) (s : State) : ∃ t, executeOpcode op s = .next t :=
  exec_completes _ _

theorem coreStep_completes (s : State) : ∃ t, coreStep s = .next t := by
  unfold coreStep
  split
  · exact ⟨s, rfl⟩
  · exact executeOpcode_completes _ _

theorem runTurn_completes (s : State) : ∃ t, runTurn s = .next t := by
  unfold runTurn
  split
  · exact ⟨s, rfl⟩
  · split
    · exact ⟨syscall s, rfl⟩
    · exact coreStep_completes s

theorem interrupt_completes (op : Byte) (s : State) : ∃ t, interrupt op s = .next t := by
  unfold interrupt
  split
  · exact executeOpcode_completes op _
  · exact ⟨s, rfl⟩

theorem hostLoad_of_fits {addr : Word} {bytes : List Byte} (s : State) (h : addr.toNat + bytes.length ≤ 65536) :
    hostLoad addr bytes s = .next (s.writeBytes addr bytes) :=
  if_pos h

theorem hostLoad_of_not_fits {addr : Word} {bytes : List Byte} (s : State) (h : 65536 < addr.toNat + bytes.length) :
    hostLoad addr bytes s = .refused .hostLoadOutOfBounds :=
  if_neg (Nat.not_le.2 h)

/-- R15: a transition that is no host load past the top of memory yields a next state. -/
theorem transition_completes {tr : Transition} (s : State)
    (h : ¬ ∃ addr bytes, tr = .hostLoad addr bytes ∧ 65536 < addr.toNat + bytes.length) :
    ∃ t, transition tr s = .next t := by
  cases tr with
  | run => exact runTurn_completes s
  | interrupt op => exact interrupt_completes op s
  | hostLoad addr bytes =>
    have hfits : addr.toNat + bytes.length ≤ 65536 := Nat.not_lt.1 fun hb => h ⟨addr, bytes, rfl, hb⟩
    exact ⟨_, hostLoad_of_fits s hfits⟩
  | reset | hostWrite | hostClear | hostSet => exact ⟨_, rfl⟩

/-- Settles O10: every instruction completes, so of the seven transitions only the host load has a branch that refuses. -/
theorem onlyAnOutOfBoundsLoadHasNoNextState : Obligations.OnlyAnOutOfBoundsLoadHasNoNextState := by
  intro tr s
  refine ⟨?_, transition_completes s⟩
  rintro addr bytes rfl hb
  exact hostLoad_of_not_fits s hb

end Sys2Proof.Safety
end

/-! ## The length of what the decoder reads (R70, R71) -/

section
namespace Sys2Proof

/-- R70, over the rows of the length's own definition. -/
theorem Instr.length_one_to_three (i : Instr) : 1 ≤ i.length ∧ i.length ≤ 3 := by
  unfold Instr.length
  split <;> decide

/-- Only LXI beside DAD, the loads and stores, and MVI read operand bytes; the other rows are one term on both sides. -/
theorem decodeGroup00_length_operands (op b1 b2 c1 c2 : Byte) :
    (decodeGroup00 op b1 b2).length = (decodeGroup00 op c1 c2).length := by
  unfold decodeGroup00
  split
  case h_2 | h_3 | h_7 => split <;> rfl
  all_goals rfl

/-- Only the jumps, the calls, JMP beside IN and OUT, and the immediate arithmetic read operand bytes; CALL (row
`h_6`) is singled out by its bit 3 and its pair field, so the row takes two splits. -/
theorem decodeGroup11_length_operands (op b1 b2 c1 c2 : Byte) :
    (decodeGroup11 op b1 b2).length = (decodeGroup11 op c1 c2).length := by
  unfold decodeGroup11
  split
  case h_3 | h_4 | h_5 | h_7 => split <;> rfl
  case h_6 =>
    split
    · split <;> rfl
    · rfl
  all_goals rfl

/-- The operand bytes do not enter the length; groups 01 and 10 do not look at them at all. -/
theorem decodeOp_length_operands (op b1 b2 c1 c2 : Byte) :
    (decodeOp op b1 b2).length = (decodeOp op c1 c2).length := by
  unfold decodeOp
  split
  · exact decodeGroup00_length_operands op b1 b2 c1 c2
  · rfl
  · rfl
  · exact decodeGroup11_length_operands op b1 b2 c1 c2

/-- Settles O3: the length is the one read with zero operand bytes. -/
theorem opcodeByteAloneFixesTheLength : Obligations.OpcodeByteAloneFixesTheLength := by
  intro op
  obtain ⟨hlow, hhigh⟩ := (decodeOp op 0#8 0#8).length_one_to_three
  exact ⟨_, hlow, hhigh, fun b1 b2 => decodeOp_length_operands op b1 b2 0#8 0#8⟩

end Sys2Proof
end

/-! ## The add group (R102, R105 to R110) -/

section
namespace Sys2Proof.Safety

open Sys2Proof.Machine

theorem onlyAF_setAF (s : State) (r : Byte × Flags) : OnlyAF s (s.setAF r) := rfl

/-- The one meaning the six add forms share, at their operand `v` and carry in. -/
theorem addA_spec (s : State) (v : Byte) (cin : Bool) :
    AddResult s.a v cin (s.addA v cin).a (s.addA v cin).flags ∧ OnlyAF s (s.addA v cin) :=
  ⟨add8_spec s.a v cin s.flags, onlyAF_setAF s _⟩

/-- Settles O23: each form's meaning is `State.addA`, with no carry in for ADD and ADI and CY for ADC and ACI. -/
theorem addGroupWritesSumAndFlags : Obligations.AddGroupWritesSumAndFlags := by
  intro s
  refine ⟨fun r => ?addR, ?addM, fun d8 => ?adi, fun r => ?adcR, ?adcM, fun d8 => ?aci⟩
  case addR => exact ⟨_, rfl, addA_spec s (s.reg r) false⟩
  case addM => exact ⟨_, rfl, addA_spec s s.readM false⟩
  case adi => exact ⟨_, rfl, addA_spec s d8 false⟩
  case adcR => exact ⟨_, rfl, addA_spec s (s.reg r) s.flags.carry⟩
  case adcM => exact ⟨_, rfl, addA_spec s s.readM s.flags.carry⟩
  case aci => exact ⟨_, rfl, addA_spec s d8 s.flags.carry⟩

end Sys2Proof.Safety
end

/-! ## Decoding an instruction's bytes (R71 to R78) -/

section
namespace Sys2Proof

open Sys2Proof.Machine (hiByte loByte joinBytes joinBytes_hiByte_loByte)

/-- Code 6 is the memory operand M (R73). -/
@[simp] theorem regOfCode_six : regOfCode 6#3 = none := rfl

/-- Bit 3 of an opcode is the selector bit beside its pair field (R72). -/
@[simp] theorem getElem_three_pairByte (xx pp : BitVec 2) (q : BitVec 1) (sss : BitVec 3) :
    (pairByte xx pp q sss)[3] = q[0] := by
  revert xx pp q sss; decide

/-- Format F1: the opcode byte alone decides the instruction, whatever bytes follow. -/
theorem decode_f1 {i : Instr} {op : Byte} (hlen : i.length = 1) (h : ∀ b1 b2, decodeOp op b1 b2 = i)
    (rest : List Byte) : decode ([op] ++ rest) = .ok (i, rest) := by
  simp [decode, h, hlen]

/-- Format F2: the opcode and the byte after it decide the instruction. -/
theorem decode_f2 {i : Instr} {op d8 : Byte} (hlen : i.length = 2) (h : ∀ b2, decodeOp op d8 b2 = i)
    (rest : List Byte) : decode (encodeF2 op d8 ++ rest) = .ok (i, rest) := by
  simp [decode, encodeF2, h, hlen]

/-- Format F3: the operand is the two bytes after the opcode, the low one first. -/
theorem decode_f3 {op : Byte} {d16 : Word} (i : Word → Instr) (hlen : (i d16).length = 3)
    (h : ∀ b1 b2, decodeOp op b1 b2 = i (joinBytes b2 b1)) (rest : List Byte) :
    decode (encodeF3 op d16 ++ rest) = .ok (i d16, rest) := by
  simp [decode, encodeF3, h, hlen]

/-- RST's number is the middle field of its opcode (R77). -/
theorem decodeOp_rst (n : BitVec 3) (b1 b2 : Byte) : decodeOp (octalByte 0b11#2 n 0b111#3) b1 b2 = .rst n := by
  simp [decodeOp, decodeGroup11]

/-- The undefined opcodes decode to themselves (R78). -/
theorem decodeOp_of_mem_undefinedOpcodes {op : Byte} (h : op ∈ undefinedOpcodes) (b1 b2 : Byte) :
    decodeOp op b1 b2 = .undef op := by
  simp only [undefinedOpcodes, List.mem_cons, List.not_mem_nil, or_false] at h
  obtain rfl | rfl | rfl | rfl | rfl | rfl | rfl | rfl | rfl | rfl | rfl | rfl := h <;> rfl

/-- Settles O1, format by format: an opcode byte built from fields is read back by the lemmas on fields, a fixed one
by evaluation. -/
theorem decodeOfEncodeGivesTheInstructionBack : Obligations.DecodeOfEncodeGivesTheInstructionBack := by
  intro i rest hw
  cases i
  case movRR | movRM | movMR => exact decode_f1 rfl (fun _ _ => by simp [decodeOp, decodeGroup01]) rest
  case inrR | dcrR | inx | dcx | dad => exact decode_f1 rfl (fun _ _ => by simp [decodeOp, decodeGroup00]) rest
  case addR | adcR | subR | sbbR | anaR | xraR | oraR | cmpR =>
    exact decode_f1 rfl (fun _ _ => by simp [decodeOp, decodeGroup10]) rest
  case push | pop => exact decode_f1 rfl (fun _ _ => by simp [decodeOp, decodeGroup11]) rest
  case ldax rp | stax rp => cases rp <;> exact decode_f1 rfl (fun _ _ => rfl) rest
  case rst n => exact decode_f1 rfl (decodeOp_rst n) rest
  case undef op => exact decode_f1 rfl (decodeOp_of_mem_undefinedOpcodes (List.contains_iff_mem.1 hw)) rest
  case mviR => exact decode_f2 rfl (fun _ => by simp [decodeOp, decodeGroup00]) rest
  case mviM | adi | aci | sui | sbi | cpi | ani | xri | ori | inp | outp => exact decode_f2 rfl (fun _ => rfl) rest
  case lxi => exact decode_f3 _ rfl (fun _ _ => by simp [decodeOp, decodeGroup00]) rest
  case lda | sta | lhld | shld | jmp | jnz | jz | jnc | jc | jpo | jpe | jp | jm | call | cnz | cz | cnc | cc | cpo
    | cpe | cp | cm => exact decode_f3 _ rfl (fun _ _ => rfl) rest
  all_goals exact decode_f1 rfl (fun _ _ => rfl) rest

/-! ## Encoding what was decoded (R77, R78) -/

/-- A property of the eight values of a three-bit opcode field (R72) is a property of every value. -/
theorem field_cases {P : BitVec 3 → Prop} (f0 : P 0#3) (f1 : P 1#3) (f2 : P 2#3) (f3 : P 3#3) (f4 : P 4#3)
    (f5 : P 5#3) (f6 : P 6#3) (f7 : P 7#3) (x : BitVec 3) : P x := by
  have hx : ∀ x : BitVec 3, x = 0#3 ∨ x = 1#3 ∨ x = 2#3 ∨ x = 3#3 ∨ x = 4#3 ∨ x = 5#3 ∨ x = 6#3 ∨ x = 7#3 := by
    decide
  obtain rfl | rfl | rfl | rfl | rfl | rfl | rfl | rfl := hx x <;> assumption

theorem encode_length (i : Instr) : (encode i).length = i.length := by
  cases i <;> rfl

/-- An instruction of the map whose bytes are the bytes `op`, `b1`, `b2` read, as many as its length says. -/
def ReadsBytes (i : Instr) (op b1 b2 : Byte) : Prop :=
  i.wellFormed = true ∧ encode i = [op, b1, b2].take i.length

theorem ReadsBytes.f3 {i : Instr} {op b1 b2 : Byte} (hw : i.wellFormed = true) (hlen : i.length = 3)
    (h : encode i = encodeF3 op (joinBytes b2 b1)) : ReadsBytes i op b1 b2 := by
  refine ⟨hw, ?_⟩
  rw [h, hlen, encodeF3, Machine.loByte_joinBytes, Machine.hiByte_joinBytes]
  rfl

/-- LXI, in the even columns of row 1, and the direct loads and stores, in the upper half of row 2, read a word. -/
theorem decodeGroup00_readsBytes (ddd sss : BitVec 3) (b1 b2 : Byte) :
    ReadsBytes (decodeGroup00 (octalByte 0b00#2 ddd sss) b1 b2) (octalByte 0b00#2 ddd sss) b1 b2 := by
  cases sss using field_cases
  case f0 | f3 | f4 | f5 | f6 | f7 => cases ddd using field_cases <;> exact ⟨rfl, rfl⟩
  case f1 =>
    cases ddd using field_cases
    case f0 | f2 | f4 | f6 => exact .f3 rfl rfl rfl
    all_goals exact ⟨rfl, rfl⟩
  case f2 =>
    cases ddd using field_cases
    case f4 | f5 | f6 | f7 => exact .f3 rfl rfl rfl
    all_goals exact ⟨rfl, rfl⟩

theorem decodeGroup01_readsBytes (ddd sss : BitVec 3) (b1 b2 : Byte) :
    ReadsBytes (decodeGroup01 (octalByte 0b01#2 ddd sss)) (octalByte 0b01#2 ddd sss) b1 b2 := by
  cases ddd using field_cases <;> cases sss using field_cases <;> exact ⟨rfl, rfl⟩

theorem decodeGroup10_readsBytes (ddd sss : BitVec 3) (b1 b2 : Byte) :
    ReadsBytes (decodeGroup10 (octalByte 0b10#2 ddd sss)) (octalByte 0b10#2 ddd sss) b1 b2 := by
  cases ddd using field_cases <;> cases sss using field_cases <;> exact ⟨rfl, rfl⟩

/-- Rows 2 and 4 are the conditional jumps and calls, with a word to read; JMP and CALL stand alone in rows 3 and 5. -/
theorem decodeGroup11_readsBytes (ddd sss : BitVec 3) (b1 b2 : Byte) :
    ReadsBytes (decodeGroup11 (octalByte 0b11#2 ddd sss) b1 b2) (octalByte 0b11#2 ddd sss) b1 b2 := by
  cases sss using field_cases
  case f0 | f1 | f6 | f7 => cases ddd using field_cases <;> exact ⟨rfl, rfl⟩
  case f2 | f4 => cases ddd using field_cases <;> exact .f3 rfl rfl rfl
  case f3 =>
    cases ddd using field_cases
    case f0 => exact .f3 rfl rfl rfl
    all_goals exact ⟨rfl, rfl⟩
  case f5 =>
    cases ddd using field_cases
    case f1 => exact .f3 rfl rfl rfl
    all_goals exact ⟨rfl, rfl⟩

theorem decodeOp_readsBytes (op b1 b2 : Byte) : ReadsBytes (decodeOp op b1 b2) op b1 b2 := by
  cases op using byte_of_fields with | h xx ddd sss =>
  have hxx : ∀ xx : BitVec 2, xx = 0b00#2 ∨ xx = 0b01#2 ∨ xx = 0b10#2 ∨ xx = 0b11#2 := by decide
  unfold decodeOp
  rw [opGroup_octalByte]
  obtain rfl | rfl | rfl | rfl := hxx xx
  · exact decodeGroup00_readsBytes ddd sss b1 b2
  · exact decodeGroup01_readsBytes ddd sss b1 b2
  · exact decodeGroup10_readsBytes ddd sss b1 b2
  · exact decodeGroup11_readsBytes ddd sss b1 b2

/-- Settles O2, by the four groups and the fields of the opcode. -/
theorem encodeOfDecodeGivesTheBytesBack : Obligations.EncodeOfDecodeGivesTheBytesBack :=
  decodeOp_readsBytes

/-- An instruction whose encoding is one fixed byte is decoded from that byte alone. -/
theorem eq_of_decodeOp_of_encode {i : Instr} {x op b1 b2 : Byte} (h : decodeOp op b1 b2 = i) (hi : encode i = [x]) :
    op = x := by
  obtain ⟨-, hbytes⟩ := decodeOp_readsBytes op b1 b2
  have hlen : i.length = 1 := by rw [← encode_length, hi]; rfl
  rw [h, hi, hlen] at hbytes
  simpa using hbytes.symm

/-- Settles O4: an undefined opcode is well-formed only if it is one of the twelve, and is its own encoding. -/
theorem undefinedOpcodesAreTheTwelve : Obligations.UndefinedOpcodesAreTheTwelve := by
  intro op b1 b2
  have hmem : op ∈ undefinedOpcodes ↔
      op.toNat ∈ [0x08, 0x10, 0x18, 0x20, 0x28, 0x30, 0x38, 0xCB, 0xD9, 0xDD, 0xED, 0xFD] := by
    simp [undefinedOpcodes, BitVec.toNat_eq]
  have hundef : ∀ x, decodeOp op b1 b2 = .undef x → x = op ∧ op ∈ undefinedOpcodes := by
    intro x hx
    obtain rfl : op = x := eq_of_decodeOp_of_encode hx rfl
    obtain ⟨hw, -⟩ := decodeOp_readsBytes op b1 b2
    rw [hx] at hw
    exact ⟨rfl, List.contains_iff_mem.1 hw⟩
  refine ⟨⟨fun ⟨x, hx⟩ => hmem.1 (hundef x hx).2, fun h => ?_⟩, fun x hx => ⟨(hundef x hx).1, ?_⟩⟩
  · exact ⟨op, decodeOp_of_mem_undefinedOpcodes (hmem.2 h) b1 b2⟩
  · rw [hx]; rfl

/-- Settles O5: each row is the encoding of its instruction, and the last has two bytes left over. -/
theorem writtenOutBytesDecode : Obligations.WrittenOutBytesDecode := by
  have h := decodeOfEncodeGivesTheInstructionBack
  exact ⟨h (.movRR .b .a) [] rfl, h (.mviM 0xFF#8) [] rfl, h (.lxi .hl 0x1234#16) [] rfl, h (.adcR .c) [] rfl,
    h (.dad .de) [] rfl, h (.xri 0x81#8) [] rfl, h (.jz 0x0200#16) [] rfl, h (.rst 5#3) [] rfl, h .pushPsw [] rfl,
    h .hlt [] rfl, h (.undef 0xCB#8) [0x00#8, 0x02#8] rfl⟩

end Sys2Proof
end

/-! ## What any instruction may write (R20 to R30, R54) -/

section
namespace Sys2Proof.Safety

open Sys2Proof.Machine

/-! ### Registers and the rest of the core -/

/-- What an instruction leaves of everything but memory and the flags. -/
structure InstrFrame (i : Instr) (s t : State) : Prop where
  regs : ∀ r, r ∉ writtenRegs i → t.reg r = s.reg r
  sp : writesSp i = false → t.sp = s.sp
  pc : writesPc i = false → t.pc = s.pc
  halted : i ≠ .hlt → t.halted = s.halted
  ie : i ≠ .ei → i ≠ .di → t.ie = s.ie
  trace : i ≠ .hlt → (∀ p, i ≠ .outp p) → t.trace = s.trace
  inputs : (∀ p, i ≠ .inp p) → t.inputs = s.inputs
  disp : t.disp = s.disp
  cfg : t.cfg = s.cfg
  total : t.total = s.total
  schedule : t.schedule = s.schedule

theorem InstrFrame.refl (i : Instr) (s : State) : InstrFrame i s s := by
  constructor <;> intros <;> rfl

/-- An instruction that writes memory and flags at most. -/
theorem InstrFrame.ofMemFlags {i : Instr} {s t : State} (h : t = { s with mem := t.mem, flags := t.flags }) :
    InstrFrame i s t := by
  constructor <;> intros <;> rw [h]
  next r _ => cases r <;> rfl

/-- An instruction whose one register is A. -/
theorem InstrFrame.ofA {i : Instr} {s t : State} (hw : writtenRegs i = [.a])
    (h : t = { s with a := t.a, flags := t.flags }) : InstrFrame i s t := by
  constructor <;> intros <;> rw [h]
  next r hr =>
    rw [hw] at hr
    cases r
    case a => simp at hr
    all_goals rfl

/-- An instruction that writes its registers, SP if it is one that does, and flags. -/
theorem InstrFrame.ofRegs {i : Instr} {s t : State}
    (h : t = { s with a := t.a, b := t.b, c := t.c, d := t.d, e := t.e, h := t.h, l := t.l, sp := t.sp,
                      mem := t.mem, flags := t.flags })
    (hregs : ∀ r, r ∉ writtenRegs i → t.reg r = s.reg r) (hsp : writesSp i = false → t.sp = s.sp) :
    InstrFrame i s t := by
  refine ⟨hregs, hsp, ?_, ?_, ?_, ?_, ?_, ?_, ?_, ?_, ?_⟩ <;> intros <;> rw [h]

/-- A control transfer. -/
theorem InstrFrame.ofControl {i : Instr} {s t : State} (hpc : writesPc i = true)
    (h : t = { s with mem := t.mem, sp := t.sp, pc := t.pc }) (hsp : writesSp i = false → t.sp = s.sp) :
    InstrFrame i s t := by
  refine ⟨fun r _ => ?_, hsp, fun hn => ?_, ?_, ?_, ?_, ?_, ?_, ?_, ?_, ?_⟩
  · rw [h]; cases r <;> rfl
  · simp [hpc] at hn
  all_goals intros; rw [h]

theorem InstrFrame.withFlags {i : Instr} {s t : State} (h : InstrFrame i s t) (f : Flags) :
    InstrFrame i s { t with flags := f } := by
  have hreg (r : Reg) : State.reg { t with flags := f } r = t.reg r := by cases r <;> rfl
  exact { h with regs := fun r hr => (hreg r).trans (h.regs r hr) }

theorem InstrFrame.jumpIf {i : Instr} (s : State) (cond : Cond) (addr : Word) (hpc : writesPc i = true) :
    InstrFrame i s (s.jumpIf cond addr) := by
  unfold State.jumpIf
  split
  · exact .ofControl hpc rfl fun _ => rfl
  · exact .refl i s

theorem InstrFrame.callIf {i : Instr} (s : State) (cond : Cond) (addr : Word) (hpc : writesPc i = true)
    (hsp : writesSp i = true) : InstrFrame i s (s.callIf cond addr) := by
  unfold State.callIf
  split
  · exact .ofControl hpc rfl fun hn => absurd (hsp.symm.trans hn) nofun
  · exact .refl i s

theorem InstrFrame.returnIf {i : Instr} (s : State) (cond : Cond) (hpc : writesPc i = true)
    (hsp : writesSp i = true) : InstrFrame i s (s.returnIf cond) := by
  unfold State.returnIf
  split
  · exact .ofControl hpc rfl fun hn => absurd (hsp.symm.trans hn) nofun
  · exact .refl i s

theorem reg_setPair {s : State} {p : Pair} {v : Word} {r : Reg} (hr : r ∉ pairRegs p) :
    (s.setPair p v).reg r = s.reg r := by
  revert hr
  cases p <;> cases r <;> simp [pairRegs, State.setPair, State.reg]

theorem reg_setStackPair {s : State} {p : StackPair} {v : Word} {r : Reg} (hr : r ∉ stackPairRegs p) :
    (s.setStackPair p v).reg r = s.reg r := by
  revert hr
  cases p <;> cases r <;> simp [stackPairRegs, State.setStackPair, State.reg]

theorem InstrFrame.setReg {i : Instr} (s : State) {r : Reg} (v : Byte) (hw : writtenRegs i = [r]) :
    InstrFrame i s (s.setReg r v) := by
  refine .ofRegs (by cases r <;> rfl) (fun r' hr => ?_) fun _ => s.setReg_sp r v
  rw [hw, List.mem_singleton] at hr
  exact State.reg_setReg_ne s v hr

theorem InstrFrame.setPair {i : Instr} (s : State) {p : Pair} (v : Word) (hw : writtenRegs i = pairRegs p)
    (hsp : writesSp i = (p == .sp)) : InstrFrame i s (s.setPair p v) := by
  refine .ofRegs (by cases p <;> rfl) (fun r hr => reg_setPair (hw ▸ hr)) fun hn => ?_
  cases p
  case sp => simp [hsp] at hn
  all_goals rfl

/-- Every instruction keeps what it does not name: the cases follow the shape of the meaning. -/
theorem exec_frame {i : Instr} {s t : State} (e : exec i s = .next t) : InstrFrame i s t := by
  cases i
  all_goals (obtain rfl := Host.Outcome.next.inj e; clear e)
  case movRR | movRM | mviR => exact .setReg s _ rfl
  case inrR | dcrR => exact .withFlags (.setReg s _ rfl) _
  case lxi | inx | dcx => exact .setPair s _ rfl rfl
  case lhld => exact .setPair s (p := .hl) _ rfl rfl
  case dad => exact .withFlags (.setPair s (p := .hl) _ rfl rfl) _
  case xchg => exact .ofRegs rfl (fun r hr => by revert hr; cases r <;> simp [writtenRegs, State.reg]) fun _ => rfl
  case xthl => exact .ofRegs rfl (fun r hr => by revert hr; cases r <;> simp [writtenRegs, State.reg]) fun _ => rfl
  case pop rp => exact .ofRegs (by cases rp <;> rfl) (fun r hr => reg_setStackPair hr) nofun
  case popPsw => exact .ofRegs rfl (fun r hr => by revert hr; cases r <;> simp [writtenRegs, State.reg]) nofun
  case push | pushPsw | sphl => exact .ofRegs rfl (fun r _ => by cases r <;> rfl) nofun
  case jmp | pchl => exact .ofControl rfl rfl fun _ => rfl
  case jnz | jz | jnc | jc | jpo | jpe | jp | jm => exact .jumpIf s _ _ rfl
  case call | rst | ret => exact .ofControl rfl rfl nofun
  case cnz | cz | cnc | cc | cpo | cpe | cp | cm => exact .callIf s _ _ rfl rfl
  case rnz | rz | rnc | rc | rpo | rpe | rp | rm => exact .returnIf s _ rfl rfl
  case movMR | mviM | sta | shld | stax | cmpR | cmpM | cpi | inrM | dcrM | stc | cmc => exact .ofMemFlags rfl
  case nop | undef => exact .refl _ s
  case hlt =>
    exact { InstrFrame.refl .hlt s with
      regs r _ := by cases r <;> rfl
      halted h := absurd rfl h
      trace h _ := absurd rfl h }
  case outp p =>
    exact { InstrFrame.refl (.outp p) s with
      regs r _ := by cases r <;> rfl
      trace _ h := absurd rfl (h p) }
  case ei =>
    exact { InstrFrame.refl .ei s with
      regs r _ := by cases r <;> rfl
      ie h _ := absurd rfl h }
  case di =>
    exact { InstrFrame.refl .di s with
      regs r _ := by cases r <;> rfl
      ie _ h := absurd rfl h }
  case inp p =>
    exact { InstrFrame.refl (.inp p) s with
      regs r hr := by revert hr; cases r <;> simp [writtenRegs, State.reg]
      inputs h := absurd rfl (h p) }
  all_goals exact .ofA rfl rfl

/-- Settles O13: by the frame of each meaning. -/
theorem everyInstructionKeepsOtherState : Obligations.EveryInstructionKeepsOtherState := by
  intro i s
  obtain ⟨t, e⟩ := exec_completes i s
  obtain ⟨hregs, hsp, hpc, hhalted, hie, htrace, hinputs, hdisp, hcfg, htotal, hschedule⟩ := exec_frame e
  exact ⟨t, e, hregs, hsp, hpc, hhalted, hie, htrace, hinputs, hdisp, hcfg, htotal, hschedule⟩

/-! ### Flags (R26) -/

theorem SameFlagsBut.refl (mask f : Flags) : SameFlagsBut mask f f :=
  ⟨fun _ => rfl, fun _ => rfl, fun _ => rfl, fun _ => rfl, fun _ => rfl⟩

theorem SameFlagsBut.ofAll (f g : Flags) : SameFlagsBut ⟨true, true, true, true, true⟩ f g := by
  constructor <;> exact nofun

/-- Every instruction keeps the flags outside its row of R26's table. -/
theorem exec_flags {i : Instr} {s t : State} (e : exec i s = .next t) :
    SameFlagsBut (writtenFlags i) s.flags t.flags := by
  cases i
  all_goals (obtain rfl := Host.Outcome.next.inj e; clear e)
  case addR | addM | adi | adcR | adcM | aci | subR | subM | sui | sbbR | sbbM | sbi | cmpR | cmpM | cpi | daa | popPsw
    | anaR | anaM | ani | xraR | xraM | xri | oraR | oraM | ori => exact .ofAll _ _
  case inrR | inrM | dcrR | dcrM => exact ⟨nofun, nofun, nofun, nofun, fun _ => rfl⟩
  case dad | rlc | rrc | ral | rar | stc | cmc =>
    exact ⟨fun _ => rfl, fun _ => rfl, fun _ => rfl, fun _ => rfl, nofun⟩
  case jnz | jz | jnc | jc | jpo | jpe | jp | jm => simp only [State.jumpIf]; split <;> exact .refl _ _
  case cnz | cz | cnc | cc | cpo | cpe | cp | cm => simp only [State.callIf]; split <;> exact .refl _ _
  case rnz | rz | rnc | rc | rpo | rpe | rp | rm => simp only [State.returnIf]; split <;> exact .refl _ _
  case movRR | movRM | mviR => rw [State.setReg_flags]; exact .refl _ _
  case lxi | inx | dcx => rw [State.setPair_flags]; exact .refl _ _
  case pop => rw [State.setStackPair_flags]; exact .refl _ _
  all_goals exact .refl _ _

/-- Settles O12: row by row of the table. -/
theorem everyInstructionKeepsOtherFlags : Obligations.EveryInstructionKeepsOtherFlags := by
  intro i s
  obtain ⟨t, e⟩ := exec_completes i s
  exact ⟨t, e, exec_flags e⟩

/-! ### Memory (R54) -/

theorem SameMemoryBut.ofMemEq {addrs : List Word} {s t : State} (h : t.mem = s.mem) : SameMemoryBut addrs s t := by
  intro k _
  rw [State.readByte, State.readByte, h]

theorem SameMemoryBut.trans {addrs : List Word} {s t u : State} (h : SameMemoryBut addrs s t)
    (h' : SameMemoryBut addrs t u) : SameMemoryBut addrs s u :=
  fun k hk => (h' k hk).trans (h k hk)

/-- A byte written inside `addrs`. -/
theorem SameMemoryBut.writeByte {addrs : List Word} {s : State} {addr : Word} (v : Byte) (h : addr ∈ addrs) :
    SameMemoryBut addrs s (s.writeByte addr v) :=
  fun _ hk => State.readByte_writeByte_ne v fun he => hk (he ▸ h)

theorem SameMemoryBut.writeWord (s : State) (addr v : Word) :
    SameMemoryBut [addr, addr + 1#16] s (s.writeWord addr v) :=
  .trans (.writeByte _ (by simp)) (.writeByte _ (by simp))

theorem SameMemoryBut.push16 (s : State) (v : Word) :
    SameMemoryBut [s.sp - 1#16, s.sp - 2#16] s (s.push16 v) :=
  .trans (t := s.writeByte (s.sp - 1#16) (hiByte v)) (.writeByte _ (by simp)) (.writeByte _ (by simp))

/-- A conditional call stores its two bytes only when it is taken (R172). -/
theorem SameMemoryBut.callIf (s : State) (cond : Cond) (addr : Word) :
    SameMemoryBut (if condHolds cond s.flags then [s.sp - 1#16, s.sp - 2#16] else []) s (s.callIf cond addr) := by
  unfold State.callIf
  split
  · exact .push16 s s.pc
  · exact .ofMemEq rfl

/-- Every instruction stores to its own bytes alone. -/
theorem exec_memory {i : Instr} {s t : State} (e : exec i s = .next t) : SameMemoryBut (storedBytes i s) s t := by
  cases i
  all_goals (obtain rfl := Host.Outcome.next.inj e; clear e)
  case movMR | mviM | inrM | dcrM | sta | stax =>
    exact .writeByte _ (List.mem_singleton_self _)
  case shld | xthl => exact .writeWord s _ _
  case push | pushPsw | call | rst => exact .push16 s _
  case cnz | cz | cnc | cc | cpo | cpe | cp | cm => exact .callIf s _ _
  case jnz | jz | jnc | jc | jpo | jpe | jp | jm => refine .ofMemEq ?_; simp only [State.jumpIf]; split <;> rfl
  case rnz | rz | rnc | rc | rpo | rpe | rp | rm => refine .ofMemEq ?_; simp only [State.returnIf]; split <;> rfl
  case movRR | movRM | mviR | inrR | dcrR => exact .ofMemEq (State.setReg_mem ..)
  case lxi | inx | dcx => exact .ofMemEq (State.setPair_mem ..)
  case pop => exact .ofMemEq (State.setStackPair_mem ..)
  all_goals exact .ofMemEq rfl

/-- Settles O11: by the byte and word writes each meaning is made of. -/
theorem everyInstructionKeepsOtherMemory : Obligations.EveryInstructionKeepsOtherMemory := by
  intro i s
  obtain ⟨t, e⟩ := exec_completes i s
  exact ⟨t, e, exec_memory e⟩

end Sys2Proof.Safety
end

/-! ## The step: the invariant, Halted and IE -/

section
namespace Sys2Proof.Safety

open Sys2Proof.Machine

theorem transition_of_step {s t : State} (h : step s = .next t) :
    transition s.nextTransition { s with schedule := s.schedule.tail } = .next t :=
  h

/-! ### A system call -/

/-- Of the state a dispatcher function writes memory, the dispatcher's part, the trace and the inputs. -/
theorem execute_frame {fn : Nat} {bc de hl res : Word} {s u : State} (h : execute fn bc de hl s = (res, u)) :
    u = { s with mem := u.mem, disp := u.disp, trace := u.trace, inputs := u.inputs } := by
  have hframe := (execute_change fn bc de hl s).frame
  rw [h] at hframe
  exact hframe

theorem execute_sp {fn : Nat} {bc de hl res : Word} {s u : State} (h : execute fn bc de hl s = (res, u)) :
    u.sp = s.sp := by
  rw [execute_frame h]

/-- What a system call does to the machine, from what the dispatcher answers (R277). -/
theorem syscall_eq {s u : State} {res : Word} (h : execute s.c.toNat s.bc s.de s.hl s = (res, u)) :
    syscall s = { s with a := loByte res, h := hiByte res, l := loByte res, pc := u.top16, sp := s.sp + 2#16
                         mem := u.mem, disp := u.disp, trace := u.trace, inputs := u.inputs } := by
  rw [syscall, h, State.deliver, execute_frame h]
  rfl

/-- Of the core a system call writes A, HL, PC and SP. -/
theorem syscall_frame (s : State) :
    (syscall s).halted = s.halted ∧ (syscall s).ie = s.ie ∧ (syscall s).cfg = s.cfg := by
  rw [syscall_eq rfl]
  exact ⟨rfl, rfl, rfl⟩

/-! ### The invariant -/

/-- The invariant speaks of memory, the dispatcher's state and the parameters alone. -/
theorem Inv.ofMem {s t : State} (h : Inv s) (hmem : Memory.wf t.mem = true) (hdisp : t.disp = s.disp)
    (hcfg : t.cfg = s.cfg) : Inv t := by
  obtain ⟨-, hfiles, hdrive, hcycles⟩ := h
  rw [Inv, hdisp, hcfg]
  exact ⟨hmem, hfiles, hdrive, hcycles⟩

theorem Inv.mem_wf {s : State} (h : Inv s) : Memory.wf s.mem = true := h.1

theorem executeOpcode_inv {op : Byte} {s t : State} (h : Inv s) (e : executeOpcode op s = .next t) : Inv t := by
  obtain ⟨hdisp, hcfg⟩ := exec_disp_cfg e
  exact h.ofMem (exec_mem_wf e h.mem_wf) hdisp hcfg

theorem syscall_inv {s : State} (h : Inv s) : Inv (syscall s) := by
  obtain ⟨hmem, hfiles, hdrive, hcycles⟩ := h
  have hc := execute_change s.c.toNat s.bc s.de s.hl s
  obtain ⟨-, -, hcfg⟩ := syscall_frame s
  rw [Inv, hcfg]
  exact ⟨hc.mem_wf hmem, hc.files_wf _ hfiles, hc.curDrive_lt hdrive, hcycles⟩

theorem runTurn_inv {s t : State} (h : Inv s) (e : runTurn s = .next t) : Inv t := by
  obtain ⟨-, rfl⟩ | ⟨-, -, rfl⟩ | ⟨-, -, e⟩ := runTurn_cases e
  · exact h
  · exact syscall_inv h
  · exact executeOpcode_inv (s := { s.advancePc 1 with total := s.total + stepCost s }) h e

theorem interrupt_inv {op : Byte} {s t : State} (h : Inv s) (e : interrupt op s = .next t) : Inv t := by
  obtain ⟨-, rfl⟩ | ⟨-, e⟩ := interrupt_cases e
  · exact h
  · exact executeOpcode_inv (s := s.acceptInterrupt) h e

/-- A host load that has a next state wrote the bytes (R62). -/
theorem hostLoad_cases {addr : Word} {bytes : List Byte} {s t : State} (e : hostLoad addr bytes s = .next t) :
    addr.toNat + bytes.length ≤ 65536 ∧ t = s.writeBytes addr bytes := by
  unfold hostLoad at e
  split at e
  · next hfits => exact ⟨hfits, (Host.Outcome.next.inj e).symm⟩
  · cases e

theorem hostSet_frame (x : Accessor) (s : State) :
    (hostSet x s).mem = s.mem ∧ (hostSet x s).disp = s.disp ∧ (hostSet x s).cfg = s.cfg ∧
      (hostSet x s).halted = s.halted ∧ (hostSet x s).ie = s.ie := by
  cases x with
  | reg r v => simp [hostSet]
  | sp v | pc v | flags v => exact ⟨rfl, rfl, rfl, rfl, rfl⟩

theorem transition_inv {tr : Transition} {s t : State} (h : Inv s) (e : transition tr s = .next t) : Inv t := by
  cases tr with
  | run => exact runTurn_inv h e
  | interrupt op => exact interrupt_inv h e
  | hostLoad addr bytes =>
    obtain ⟨-, rfl⟩ := hostLoad_cases e
    exact h.ofMem (State.writeBytes_wf _ _ h.mem_wf) (by simp) (by simp)
  | reset =>
    obtain rfl := Host.Outcome.next.inj e
    exact h.ofMem h.mem_wf rfl rfl
  | hostWrite addr v =>
    obtain rfl := Host.Outcome.next.inj e
    exact h.ofMem (State.writeByte_wf _ _ h.mem_wf) rfl rfl
  | hostClear =>
    obtain rfl := Host.Outcome.next.inj e
    exact h.ofMem Memory.wf_nil rfl rfl
  | hostSet x =>
    obtain rfl := Host.Outcome.next.inj e
    obtain ⟨hmem, hdisp, hcfg, -, -⟩ := hostSet_frame x s
    exact h.ofMem (hmem ▸ h.mem_wf) hdisp hcfg

/-- Settles O14: taking a turn uses up the schedule, of which the invariant does not speak, and then each of the seven
transitions keeps it. -/
theorem everyStepKeepsTheInvariant : Obligations.EveryStepKeepsTheInvariant := by
  intro s t h e
  exact transition_inv (s := { s with schedule := s.schedule.tail }) h (transition_of_step e)

/-- Settles O15: memory and the backend are empty, and the default table is whole. -/
theorem constructionMeetsTheInvariant : Obligations.ConstructionMeetsTheInvariant :=
  ⟨Memory.wf_nil, rfl, by decide, cyclesDefault_length⟩

/-! ### The step (R81, R82) -/

/-- Settles O7: the Halted test comes first in a turn. -/
theorem haltedStepChangesNothing : Obligations.HaltedStepChangesNothing := by
  intro s hrun hh
  refine ⟨if_pos hh, ?_⟩
  rw [step_run hrun]
  exact if_pos hh

/-- A turn that is not halted and not at the trampoline executes the opcode at PC. -/
theorem runTurn_eq_executeOpcode {s : State} (hh : s.halted = false) (ht : s.atTrampoline = false) :
    runTurn s = executeOpcode (s.readByte s.pc) { s.advancePc 1 with total := s.total + stepCost s } := by
  simp [runTurn, coreStep, hh, ht]

/-- Executing an opcode whose operand bytes stand at PC runs the instruction the decoder reads. -/
theorem executeOpcode_eq_exec {op b1 b2 : Byte} {s : State} {i : Instr} {rest : List Byte}
    (h1 : s.readByte s.pc = b1) (h2 : s.readByte (s.pc + 1#16) = b2) (hi : decode [op, b1, b2] = .ok (i, rest)) :
    executeOpcode op s = exec i (s.advancePc (i.length - 1)) := by
  have hinstr : s.instrAt op = i := by rw [State.instrAt, h1, h2, decodeOp_of_decode hi]
  rw [executeOpcode, hinstr]

theorem stepCost_of_running {s : State} (hh : s.halted = false) : stepCost s = s.cfg.cost (s.readByte s.pc) :=
  if_neg (by simp [hh])

/-- In a table of 256 entries the cost of an opcode is the entry at it (R307). -/
theorem cycles_getElem?_eq_cost {c : Config} (h : c.cycles.length = 256) (op : Byte) :
    c.cycles[op.toNat]? = some (c.cost op) := by
  have hlt : op.toNat < c.cycles.length := h ▸ op.isLt
  simp [Config.cost, hlt]

/-- PC past the opcode byte and then past the operand bytes is PC past the instruction. -/
theorem pc_past_instr (pc : Word) {n : Nat} (h : 1 ≤ n) :
    pc + BitVec.ofNat 16 1 + BitVec.ofNat 16 (n - 1) = pc + BitVec.ofNat 16 n := by
  rw [BitVec.add_assoc, ← BitVec.ofNat_add, Nat.add_sub_cancel' h]

/-- A turn that is not halted and not at the trampoline runs the instruction whose bytes stand at PC: the operand bytes
are fetched with PC past the opcode. -/
theorem runTurn_eq_exec {s : State} {i : Instr} {rest : List Byte} (hh : s.halted = false) (ht : s.atTrampoline = false)
    (hi : decode [s.readByte s.pc, s.readByte (s.pc + 1#16), s.readByte (s.pc + 2#16)] = .ok (i, rest)) :
    runTurn s = exec i { s with
      pc := s.pc + BitVec.ofNat 16 i.length, total := s.total + s.cfg.cost (s.readByte s.pc) } := by
  have h2 : s.pc + BitVec.ofNat 16 1 + 1#16 = s.pc + 2#16 := by rw [BitVec.add_assoc]; rfl
  obtain ⟨hlen, -⟩ := i.length_one_to_three
  rw [runTurn_eq_executeOpcode hh ht,
    executeOpcode_eq_exec (b1 := s.readByte (s.pc + 1#16)) (b2 := s.readByte (s.pc + 2#16)) rfl (h2 ▸ rfl) hi,
    ← pc_past_instr s.pc hlen, ← stepCost_of_running hh]
  rfl

/-- Settles O6: a turn does not look at the schedule that the step used up. -/
theorem stepRunsTheInstructionAtPc : Obligations.StepRunsTheInstructionAtPc := by
  intro s i rest hrun hh ht hi
  refine ⟨?_, stepCost_of_running hh, fun h => ?_⟩
  · rw [step_run hrun]
    exact runTurn_eq_exec (s := { s with schedule := s.schedule.tail }) hh ht hi
  · rw [stepCost_of_running hh]
    exact cycles_getElem?_eq_cost h _

/-- Settles O46: IE is tested first, and clearing it moves neither PC nor memory. -/
theorem interruptRunsTheOpcodeOnlyWhenEnabled : Obligations.InterruptRunsTheOpcodeOnlyWhenEnabled := by
  intro s op
  refine ⟨fun hie => if_neg (by simp [hie]), fun hie i rest hi => ?_⟩
  rw [interrupt, if_pos hie, executeOpcode_eq_exec (s := s.acceptInterrupt) rfl rfl hi]
  rfl

/-! ### Halted (R29) -/

/-- Executing an opcode sets Halted if it is HLT's, and otherwise keeps it. -/
theorem executeOpcode_halted {op : Byte} {s t : State} (e : executeOpcode op s = .next t) :
    t.halted = true ↔ s.halted = true ∨ op = 0x76#8 := by
  by_cases hi : s.instrAt op = .hlt
  · obtain rfl : op = 0x76#8 := eq_of_decodeOp_of_encode hi rfl
    rw [executeOpcode, hi] at e
    obtain rfl := Host.Outcome.next.inj e
    simp
  · have hop : op ≠ 0x76#8 := by rintro rfl; exact hi rfl
    simp [(exec_frame e).halted hi, hop]

/-- When a transition leaves the core halted: only a fetched or injected HLT and reset change Halted. -/
theorem transition_halted {tr : Transition} {s t : State} (e : transition tr s = .next t) :
    t.halted = true ↔ tr ≠ .reset ∧ (s.halted = true ∨
      (tr = .run ∧ s.halted = false ∧ s.atTrampoline = false ∧ s.readByte s.pc = 0x76#8) ∨
      (tr = .interrupt 0x76#8 ∧ s.ie = true)) := by
  cases tr with
  | run =>
    obtain ⟨hh, rfl⟩ | ⟨hh, ht, rfl⟩ | ⟨hh, ht, e⟩ := runTurn_cases e
    · simp [hh]
    · simp [syscall_frame s, hh, ht]
    · simp [executeOpcode_halted e, hh, ht]
  | interrupt op =>
    obtain ⟨hie, rfl⟩ | ⟨hie, e⟩ := interrupt_cases e
    · simp [hie]
    · simp [executeOpcode_halted e, hie]
  | hostLoad addr bytes =>
    obtain ⟨-, rfl⟩ := hostLoad_cases e
    simp
  | reset =>
    obtain rfl := Host.Outcome.next.inj e
    simp [State.coreReset]
  | hostWrite addr v =>
    obtain rfl := Host.Outcome.next.inj e
    simp [hostWrite]
  | hostClear =>
    obtain rfl := Host.Outcome.next.inj e
    simp [hostClear]
  | hostSet x =>
    obtain rfl := Host.Outcome.next.inj e
    simp [hostSet_frame x s]

theorem step_halted {s t : State} (e : step s = .next t) :
    t.halted = true ↔
      s.nextTransition ≠ .reset ∧ (s.halted = true ∨ Fetches s 0x76#8 ∨ Accepts s 0x76#8) :=
  transition_halted (s := { s with schedule := s.schedule.tail }) (transition_of_step e)

/-- Settles O8: a fetch and an accepted interrupt are no reset, so in a running core they alone decide. -/
theorem haltedIsSetByHltAndClearedByReset : Obligations.HaltedIsSetByHltAndClearedByReset := by
  intro s t e
  refine ⟨fun hh => ?_, fun hh => ?_⟩
  · have hreset : Fetches s 0x76#8 ∨ Accepts s 0x76#8 → s.nextTransition ≠ .reset := by
      rintro (⟨hn, -⟩ | ⟨hn, -⟩) <;> simp [hn]
    simpa [step_halted e, hh] using hreset
  · simp [← Bool.not_eq_true, step_halted e, hh]

/-! ### IE (R30) -/

/-- IE after an opcode: EI sets it, DI clears it, any other keeps it. -/
theorem executeOpcode_ie {op : Byte} {s t : State} (e : executeOpcode op s = .next t) :
    t.ie = true ↔ (s.ie = false ∧ op = 0xFB#8) ∨ (s.ie = true ∧ op ≠ 0xF3#8) := by
  by_cases hei : s.instrAt op = .ei
  · obtain rfl : op = 0xFB#8 := eq_of_decodeOp_of_encode hei rfl
    rw [executeOpcode, hei] at e
    obtain rfl := Host.Outcome.next.inj e
    simp
  by_cases hdi : s.instrAt op = .di
  · obtain rfl : op = 0xF3#8 := eq_of_decodeOp_of_encode hdi rfl
    rw [executeOpcode, hdi] at e
    obtain rfl := Host.Outcome.next.inj e
    simp
  · have hop : op ≠ 0xFB#8 := by rintro rfl; exact hei rfl
    have hop' : op ≠ 0xF3#8 := by rintro rfl; exact hdi rfl
    simp [(exec_frame e).ie hei hdi, hop, hop']

/-- When a transition leaves interrupts enabled: a fetched EI sets IE, a fetched DI clears it, an accepted interrupt
leaves it clear unless its opcode is EI's, and reset clears it. -/
theorem transition_ie {tr : Transition} {s t : State} (e : transition tr s = .next t) :
    t.ie = true ↔
      (s.ie = false ∧ tr = .run ∧ s.halted = false ∧ s.atTrampoline = false ∧ s.readByte s.pc = 0xFB#8) ∨
      (s.ie = true ∧ ¬ (tr = .run ∧ s.halted = false ∧ s.atTrampoline = false ∧ s.readByte s.pc = 0xF3#8) ∧
        (∀ op, tr = .interrupt op → op = 0xFB#8) ∧ tr ≠ .reset) := by
  cases tr with
  | run =>
    obtain ⟨hh, rfl⟩ | ⟨hh, ht, rfl⟩ | ⟨hh, ht, e⟩ := runTurn_cases e
    · simp [hh]
    · simp [syscall_frame s, ht]
    · simp [executeOpcode_ie e, hh, ht]
  | interrupt op =>
    obtain ⟨hie, rfl⟩ | ⟨hie, e⟩ := interrupt_cases e
    · simp [hie]
    · simp [executeOpcode_ie e, hie]
  | hostLoad addr bytes =>
    obtain ⟨-, rfl⟩ := hostLoad_cases e
    simp
  | reset =>
    obtain rfl := Host.Outcome.next.inj e
    simp [State.coreReset]
  | hostWrite addr v =>
    obtain rfl := Host.Outcome.next.inj e
    simp [hostWrite]
  | hostClear =>
    obtain rfl := Host.Outcome.next.inj e
    simp [hostClear]
  | hostSet x =>
    obtain rfl := Host.Outcome.next.inj e
    simp [hostSet_frame x s]

theorem step_ie {s t : State} (e : step s = .next t) :
    t.ie = true ↔ (s.ie = false ∧ Fetches s 0xFB#8) ∨
      (s.ie = true ∧ ¬ Fetches s 0xF3#8 ∧ (∀ op, s.nextTransition = .interrupt op → op = 0xFB#8) ∧
        s.nextTransition ≠ .reset) :=
  transition_ie (s := { s with schedule := s.schedule.tail }) (transition_of_step e)

/-- Settles O9: with IE clear only a fetched EI sets it; with IE set the three ways to clear it are the three conditions
of `step_ie` failing. -/
theorem interruptEnableIsWrittenByFour : Obligations.InterruptEnableIsWrittenByFour := by
  intro s t e
  refine ⟨fun hie => ?_, fun hie => ?_⟩
  · simp [step_ie e, hie]
  · rw [← Bool.not_eq_true, step_ie e]
    simp only [hie, Bool.true_eq_false, false_and, false_or, true_and, not_and_or, not_not, not_forall, ne_eq,
      exists_prop, and_comm]
    exact or_congr_right or_comm

/-! ### Reset and construction (R300 to R302) -/

/-- Settles O16: construction is a literal; memory at construction lists no byte. -/
theorem constructionStateIsZero : Obligations.ConstructionStateIsZero := by
  refine ⟨fun r => ?_, rfl, rfl, rfl, rfl, rfl, rfl, fun _ => rfl, rfl, rfl, rfl, rfl⟩
  cases r <;> rfl

/-- Settles O17: `State.coreReset` writes each of its fields with a constant, so a second reset finds nothing to do, and
clears IE, without which an interrupt is nothing. -/
theorem resetZeroesTheCoreAndNothingElse : Obligations.ResetZeroesTheCoreAndNothingElse := by
  intro s
  refine ⟨s.coreReset, rfl, fun r => ?_, rfl, rfl, rfl, rfl, rfl, rfl, rfl, rfl, rfl, rfl, rfl, rfl, rfl, rfl,
    fun _ => rfl⟩
  cases r <;> rfl

/-! ### The system call (R277) -/

/-- The word on top of the stack, as the number the two bytes there make (R11, R52). -/
theorem top16_toNat (s : State) : s.top16.toNat = wordAt s s.sp := by
  rw [State.top16, joinBytes_toNat, wordAt]
  omega

/-- Settles O50: the driver tests Halted and then the trampoline, and the call delivers what the dispatcher answers.
-/
theorem syscallDeliversTheResult : Obligations.SyscallDeliversTheResult := by
  intro s hrun hh hdriver hpc
  rcases hu : execute s.c.toNat s.bc s.de s.hl { s with schedule := s.schedule.tail } with ⟨res, u⟩
  have ht : s.atTrampoline = true := by simp [State.atTrampoline, hdriver, hpc]
  have hstep : step s = .next (syscall { s with schedule := s.schedule.tail }) := by
    rw [step_run hrun, runTurn, if_neg (by simp [hh])]
    exact if_pos ht
  have husp : u.sp = s.sp := execute_sp (s := { s with schedule := s.schedule.tail }) hu
  rw [syscall_eq (s := { s with schedule := s.schedule.tail }) hu] at hstep
  refine ⟨_, u, res, hstep, rfl, ?a, ?hl, ?pc, rfl, rfl, rfl, rfl, rfl, rfl, rfl, rfl, rfl, rfl, rfl, rfl, rfl⟩
  case a => exact loByte_toNat res
  case hl => exact joinBytes_hiByte_loByte res
  case pc => exact husp ▸ top16_toNat u

end Sys2Proof.Safety
end

/-! ## Data transfer (R220 to R232) -/

section
namespace Sys2Proof.Safety

open Sys2Proof.Machine

/-- A register write sets its register and no other, and changes registers alone. -/
theorem setReg_spec (s : State) (r : Reg) (v : Byte) :
    RegBecomes s (s.setReg r v) r v ∧ OnlyRegs s (s.setReg r v) :=
  ⟨⟨State.reg_setReg_self s r v, fun _ h => State.reg_setReg_ne s v h⟩, State.setReg_eq s r v⟩

/-- Settles O18: each load's meaning is a register write, of A for LDA and LDAX. -/
theorem registerLoadsWriteOneRegister : Obligations.RegisterLoadsWriteOneRegister := by
  intro s
  refine ⟨fun dst src => ?movRR, fun dst => ?movRM, fun dst d8 => ?mviR, fun a16 => ?lda, fun rp => ?ldax⟩
  case movRR => exact ⟨_, rfl, setReg_spec s dst (s.reg src)⟩
  case movRM => exact ⟨_, rfl, setReg_spec s dst s.readM⟩
  case mviR => exact ⟨_, rfl, setReg_spec s dst d8⟩
  case lda => exact ⟨_, rfl, setReg_spec s .a (s.readByte a16)⟩
  case ldax => exact ⟨_, rfl, setReg_spec s .a (s.readByte (s.indexPair rp))⟩

/-- A pair write sets its pair and no other, and changes pairs alone. -/
theorem setPair_spec (s : State) (p : Pair) (v : Word) : PairBecomes s (s.setPair p v) p v :=
  ⟨State.pair_setPair_self s p v, fun _ h => State.pair_setPair_ne s v h, State.setPair_eq s p v⟩

/-- Settles O19: LXI is a pair write; the halves of a word read back are the bytes it was read from. -/
theorem pairLoadsWriteOnePair : Obligations.PairLoadsWriteOnePair := by
  intro s
  refine ⟨fun rp d16 => ⟨_, rfl, setPair_spec s rp d16⟩, fun a16 => ⟨_, rfl, ?lo, ?hi, rfl⟩, rfl, ?xchg⟩
  case lo => exact loByte_joinBytes _ _
  case hi => exact hiByte_joinBytes _ _
  case xchg =>
    show Host.Outcome.next ((s.setHL s.de).setDE s.hl) = _
    rw [State.setDE, State.setHL, State.hl, State.de]
    simp only [hiByte_joinBytes, loByte_joinBytes]

/-- Settles O20: the halves of a written word are its quotient and remainder by 256. -/
theorem pairWriteSetsBothHalves : Obligations.PairWriteSetsBothHalves := by
  intro s v
  have halves : (hiByte v).toNat = v.toNat / 256 ∧ (loByte v).toNat = v.toNat % 256 :=
    ⟨hiByte_toNat v, loByte_toNat v⟩
  exact ⟨⟨_, rfl, halves⟩, ⟨_, rfl, halves⟩, ⟨_, rfl, halves⟩, joinBytes_toNat s.b s.c, joinBytes_toNat s.d s.e,
    joinBytes_toNat s.h s.l⟩

/-- An instruction whose meaning is one byte written. -/
theorem storesByte_of_writeByte {i : Instr} {s : State} {addr : Word} {v : Byte} (hm : Memory.wf s.mem = true)
    (e : exec i s = .next (s.writeByte addr v)) : StoresByte i s addr v :=
  ⟨_, e, State.readByte_writeByte_self addr v hm, .writeByte v (List.mem_singleton_self addr), rfl⟩

/-- Settles O21: each of the four is one byte written. -/
theorem byteStoresWriteOneByte : Obligations.ByteStoresWriteOneByte := fun _ hm =>
  ⟨fun _ => storesByte_of_writeByte hm rfl, fun _ => storesByte_of_writeByte hm rfl,
    fun _ => storesByte_of_writeByte hm rfl, fun _ => storesByte_of_writeByte hm rfl⟩

/-- A word written is two bytes, the low one at the address and the high one at the next (R52). -/
theorem readByte_writeWord {s : State} (addr v : Word) (hm : Memory.wf s.mem = true) :
    (s.writeWord addr v).readByte addr = loByte v ∧ (s.writeWord addr v).readByte (addr + 1#16) = hiByte v := by
  have hne : addr ≠ addr + 1#16 := by bv_omega
  constructor
  · rw [State.writeWord, State.readByte_writeByte_ne _ hne, State.readByte_writeByte_self addr _ hm]
  · exact State.readByte_writeByte_self _ _ (State.writeByte_wf _ _ hm)

/-- Settles O22: SHLD is a word written, L its low byte and H its high one. -/
theorem shldStoresLowByteFirst : Obligations.ShldStoresLowByteFirst := by
  intro s a16 hm
  obtain ⟨hlo, hhi⟩ := readByte_writeWord a16 s.hl hm
  exact ⟨_, rfl, hlo.trans (loByte_joinBytes _ _), hhi.trans (hiByte_joinBytes _ _), .writeWord s a16 s.hl, rfl⟩

/-- Settles O43: both bytes of the stack are read before HL is stored over them. -/
theorem xthlExchangesTheTopOfStack : Obligations.XthlExchangesTheTopOfStack := by
  intro s hm
  obtain ⟨hlo, hhi⟩ := readByte_writeWord s.sp s.hl hm
  exact ⟨_, rfl, loByte_joinBytes _ _, hiByte_joinBytes _ _, hlo.trans (loByte_joinBytes _ _),
    hhi.trans (hiByte_joinBytes _ _), .writeWord s s.sp s.hl, rfl⟩

end Sys2Proof.Safety
end

/-! ## Arithmetic (R100 to R135) -/

section
namespace Sys2Proof.Safety

open Sys2Proof.Machine

/-- The one meaning the six subtract forms share, at their operand `v` and borrow in. -/
theorem subA_spec (s : State) (v : Byte) (bin : Bool) :
    SubResult s.a v bin (s.subA v bin).a (s.subA v bin).flags ∧ OnlyAF s (s.subA v bin) :=
  ⟨sub8_spec s.a v bin s.flags, onlyAF_setAF s _⟩

/-- Settles O24: each form's meaning is `State.subA`, with no borrow in for SUB and SUI and CY for SBB and SBI. -/
theorem subGroupWritesDifferenceAndBorrows : Obligations.SubGroupWritesDifferenceAndBorrows := by
  intro s
  refine ⟨fun r => ?subR, ?subM, fun d8 => ?sui, fun r => ?sbbR, ?sbbM, fun d8 => ?sbi⟩
  case subR => exact ⟨_, rfl, subA_spec s (s.reg r) false⟩
  case subM => exact ⟨_, rfl, subA_spec s s.readM false⟩
  case sui => exact ⟨_, rfl, subA_spec s d8 false⟩
  case sbbR => exact ⟨_, rfl, subA_spec s (s.reg r) s.flags.carry⟩
  case sbbM => exact ⟨_, rfl, subA_spec s s.readM s.flags.carry⟩
  case sbi => exact ⟨_, rfl, subA_spec s d8 s.flags.carry⟩

/-- Without a borrow in, Z says that the operands are equal and CY that the first is the smaller. -/
theorem SubResult.compare {x y r : Byte} {f : Flags} (h : SubResult x y false r f) :
    (f.zero = true ↔ x = y) ∧ (f.carry = true ↔ x.toNat < y.toNat) := by
  have hx := x.isLt
  have hy := y.isLt
  have hvalue := h.value
  rw [h.szp.zero, h.carry, BitVec.toNat_eq]
  simp only [Bool.toNat_false] at hvalue ⊢
  omega

theorem cmpA_spec (s : State) (v : Byte) :
    SubResult s.a v false (sub8 s.a v false s.flags).1 (s.cmpA v).flags ∧
      s.cmpA v = { s with flags := (s.cmpA v).flags } ∧
      ((s.cmpA v).flags.zero = true ↔ s.a = v) ∧ ((s.cmpA v).flags.carry = true ↔ s.a.toNat < v.toNat) := by
  have h := sub8_spec s.a v false s.flags
  exact ⟨h, rfl, h.compare⟩

/-- Settles O25: each form's meaning is `State.cmpA`. -/
theorem compareWritesFlagsOnly : Obligations.CompareWritesFlagsOnly := fun s =>
  ⟨fun r => ⟨_, _, rfl, cmpA_spec s (s.reg r)⟩, ⟨_, _, rfl, cmpA_spec s s.readM⟩, fun d8 => ⟨_, _, rfl, cmpA_spec s d8⟩⟩

/-- A register written beside the flags reads as written, and no other register changes. -/
theorem setReg_withFlags_spec (s : State) (r : Reg) (v : Byte) (f : Flags) :
    RegBecomes s { s.setReg r v with flags := f } r v ∧
      OnlyRegs { s with flags := f } { s.setReg r v with flags := f } := by
  have hreg (r' : Reg) : State.reg { s.setReg r v with flags := f } r' = (s.setReg r v).reg r' := by
    cases r' <;> rfl
  refine ⟨⟨?_, fun r' h => ?_⟩, by cases r <;> rfl⟩
  · rw [hreg, State.reg_setReg_self]
  · rw [hreg, State.reg_setReg_ne s v h]

/-- Settles O26: a register written beside the flags of the increment or decrement. -/
theorem registerIncrementKeepsCarry : Obligations.RegisterIncrementKeepsCarry := by
  intro s r
  constructor
  · obtain ⟨⟨hr, hother⟩, honly⟩ := setReg_withFlags_spec s r (inc8 (s.reg r) s.flags).1 (inc8 (s.reg r) s.flags).2
    refine ⟨_, rfl, ?_, hother, ?_, inc8_auxCarry _ _, rfl, honly⟩ <;> rw [hr]
    · exact inc8_value _ _
    · exact inc8_szp _ _
  · obtain ⟨⟨hr, hother⟩, honly⟩ := setReg_withFlags_spec s r (dec8 (s.reg r) s.flags).1 (dec8 (s.reg r) s.flags).2
    refine ⟨_, rfl, ?_, hother, ?_, rfl, rfl, honly⟩ <;> rw [hr]
    · exact dec8_value _ _
    · exact dec8_szp _ _

/-- The operand M written beside the flags reads as written, and no other byte of memory changes. -/
theorem writeM_withFlags_spec {s : State} (v : Byte) (f : Flags) (hm : Memory.wf s.mem = true) :
    State.readByte { s.writeM v with flags := f } s.hl = v ∧ SameMemoryBut [s.hl] s { s.writeM v with flags := f } :=
  ⟨State.readByte_writeByte_self s.hl v hm, SameMemoryBut.writeByte v (List.mem_singleton_self s.hl)⟩

/-- Settles O27: the byte at HL written beside the flags of the increment or decrement. -/
theorem memoryIncrementKeepsCarry : Obligations.MemoryIncrementKeepsCarry := by
  intro s hm
  constructor
  · obtain ⟨hv, hother⟩ := writeM_withFlags_spec (inc8 s.readM s.flags).1 (inc8 s.readM s.flags).2 hm
    refine ⟨_, rfl, ?_, hother, ?_, inc8_auxCarry _ _, rfl, rfl⟩ <;> rw [hv]
    · exact inc8_value _ _
    · exact inc8_szp _ _
  · obtain ⟨hv, hother⟩ := writeM_withFlags_spec (dec8 s.readM s.flags).1 (dec8 s.readM s.flags).2 hm
    refine ⟨_, rfl, ?_, hother, ?_, rfl, rfl, rfl⟩ <;> rw [hv]
    · exact dec8_value _ _
    · exact dec8_szp _ _

/-- Settles O28: a pair write of the sum or difference. -/
theorem pairIncrementWritesNoFlag : Obligations.PairIncrementWritesNoFlag := by
  intro s rp
  have hspec (v : Word) : PairBecomes s (s.setPair rp v) rp ((s.setPair rp v).pair rp) := by
    rw [State.pair_setPair_self]
    exact setPair_spec s rp v
  refine ⟨⟨_, rfl, ?_, hspec _⟩, ⟨_, rfl, ?_, hspec _⟩⟩
  · rw [State.pair_setPair_self]
    exact BitVec.toNat_add ..
  · rw [State.pair_setPair_self, BitVec.toNat_sub, Nat.add_comm]
    rfl

/-- The 16-bit add path: the sum modulo 65536, and its carry (R133). -/
theorem add16_spec (x y : Word) (f : Flags) :
    (add16 x y f).1.toNat = (x.toNat + y.toNat) % 65536 ∧
      ((add16 x y f).2.carry = true ↔ 0xFFFF < x.toNat + y.toNat) := by
  simp [add16]

/-- Settles O29: HL is written with the 16-bit sum. -/
theorem dadWritesHlAndCarryOnly : Obligations.DadWritesHlAndCarryOnly := by
  intro s rp
  obtain ⟨hsum, hcarry⟩ := add16_spec s.hl (s.pair rp) s.flags
  refine ⟨_, rfl, ?_, hcarry, rfl⟩
  exact (congrArg BitVec.toNat (joinBytes_hiByte_loByte _)).trans hsum

/-- Settles O30: the two tests of `daaCorrection`, on numbers. -/
theorem daaCorrectsByTheValuesBefore : Obligations.DaaCorrectsByTheValuesBefore := by
  intro s
  refine ⟨_, rfl, onlyAF_setAF s _, daa8_szp s.a s.flags, daaLowExceeds_iff s.a, daaHighTest_iff s.a s.flags, ?_⟩
  rw [State.setAF_a, daa8_value, daaCorrection]
  simp only [Bool.or_eq_true, daaLowExceeds_iff, daaHighTest_iff]

/-- DAA's two tests on the binary sum `16 * hi + lo` of two pairs of digits, `hi` and `lo` the sums of the digits: the
low correction falls due when `lo` passes 9, the high one when the decimal sum passes 99. -/
theorem daa_tests_decimal {hi lo r : Nat} (hhi : hi < 19) (hlo : lo < 20) (hr : r = (16 * hi + lo) % 256) :
    (9 < r % 16 ∨ 15 < lo ↔ 9 < lo) ∧ (0x99 < r ∨ 255 < 16 * hi + lo ↔ 100 ≤ 10 * hi + lo) := by
  omega

/-- The corrected binary sum is the decimal sum modulo 100, packed. -/
theorem daa_correction_decimal {hi lo : Nat} (hhi : hi < 19) (hlo : lo < 20) :
    ((16 * hi + lo) % 256 + ((if 9 < lo then 0x06 else 0) + if 100 ≤ 10 * hi + lo then 0x60 else 0)) % 256 =
      (10 * hi + lo) / 10 % 10 * 16 + (10 * hi + lo) % 10 := by
  split <;> split <;> omega

theorem bcd_toNat {tens ones : Nat} (ht : tens < 10) (ho : ones < 10) : (bcd tens ones).toNat = tens * 16 + ones := by
  rw [bcd, BitVec.toNat_ofNat, Nat.mod_eq_of_lt (by omega)]

/-- The add path and then DAA, on decimal digits and a carry in. -/
theorem add8_daa8_decimal {x1 x0 y1 y0 : Nat} (hx1 : x1 < 10) (hx0 : x0 < 10) (hy1 : y1 < 10) (hy0 : y0 < 10)
    (cin : Bool) {r : Byte} {f : Flags} (h : AddResult (bcd x1 x0) (bcd y1 y0) cin r f) :
    (daa8 r f).1 =
        bcd ((10 * x1 + x0 + (10 * y1 + y0) + cin.toNat) / 10 % 10) ((10 * x1 + x0 + (10 * y1 + y0) + cin.toNat) % 10) ∧
      ((daa8 r f).2.carry = true ↔ 100 ≤ 10 * x1 + x0 + (10 * y1 + y0) + cin.toNat) := by
  have hlo : x0 + y0 + cin.toNat < 20 := by have := cin.toNat_lt; omega
  have hhi : x1 + y1 < 19 := by omega
  have hdec : 10 * x1 + x0 + (10 * y1 + y0) + cin.toNat = 10 * (x1 + y1) + (x0 + y0 + cin.toNat) := by omega
  obtain ⟨hvalue, -, hcarry, haux⟩ := h
  rw [bcd_toNat hx1 hx0, bcd_toNat hy1 hy0] at hvalue hcarry haux
  have hsum : x1 * 16 + x0 + (y1 * 16 + y0) + cin.toNat = 16 * (x1 + y1) + (x0 + y0 + cin.toNat) := by omega
  have hnibbles : (x1 * 16 + x0) % 16 + (y1 * 16 + y0) % 16 + cin.toNat = x0 + y0 + cin.toNat := by omega
  rw [hsum] at hvalue hcarry
  rw [hnibbles] at haux
  obtain ⟨hlow, hhigh⟩ := daa_tests_decimal hhi hlo hvalue
  rw [hdec]
  constructor
  · apply BitVec.eq_of_toNat_eq
    rw [daa8_value, daaCorrection, bcd_toNat (by omega) (by omega)]
    simp only [Bool.or_eq_true, daaLowExceeds_iff, daaHighTest_iff, hcarry, haux, hlow, hhigh]
    rw [hvalue]
    exact daa_correction_decimal hhi hlo
  · rw [← hhigh, ← hcarry]
    exact daaHighTest_iff r f

/-- Settles O31: ACI's sum and flags are those of the add path, on which DAA then acts. -/
theorem addThenDaaAddsDecimalNumbers : Obligations.AddThenDaaAddsDecimalNumbers := by
  intro s x1 x0 y1 y0 hx1 hx0 hy1 hy0 ha
  have h := add8_spec s.a (bcd y1 y0) s.flags.carry s.flags
  rw [ha] at h
  obtain ⟨hdigits, hcarry⟩ := add8_daa8_decimal hx1 hx0 hy1 hy0 s.flags.carry h
  rw [← ha] at hdigits hcarry
  exact ⟨_, rfl, hdigits, hcarry⟩

end Sys2Proof.Safety
end

/-! ## Logic and rotates (R140 to R158) -/

section
namespace Sys2Proof.Safety

open Sys2Proof.Machine

theorem andA_spec (s : State) (v : Byte) :
    (s.andA v).a = s.a &&& v ∧ LogicResult (s.andA v).a true (s.andA v).flags ∧ OnlyAF s (s.andA v) :=
  ⟨rfl, andFlags_spec _ _, onlyAF_setAF s _⟩

theorem xorA_spec (s : State) (v : Byte) :
    (s.xorA v).a = s.a ^^^ v ∧ LogicResult (s.xorA v).a false (s.xorA v).flags ∧ OnlyAF s (s.xorA v) :=
  ⟨rfl, orXorFlags_spec _ _, onlyAF_setAF s _⟩

theorem orA_spec (s : State) (v : Byte) :
    (s.orA v).a = s.a ||| v ∧ LogicResult (s.orA v).a false (s.orA v).flags ∧ OnlyAF s (s.orA v) :=
  ⟨rfl, orXorFlags_spec _ _, onlyAF_setAF s _⟩

/-- Settles O32: each form's meaning is one of the three accumulator operations at its operand. -/
theorem logicGroupWritesResultAndFlags : Obligations.LogicGroupWritesResultAndFlags := fun s =>
  ⟨fun r => ⟨_, rfl, andA_spec s (s.reg r)⟩, ⟨_, rfl, andA_spec s s.readM⟩, fun d8 => ⟨_, rfl, andA_spec s d8⟩,
    fun r => ⟨_, rfl, xorA_spec s (s.reg r)⟩, ⟨_, rfl, xorA_spec s s.readM⟩, fun d8 => ⟨_, rfl, xorA_spec s d8⟩,
    fun r => ⟨_, rfl, orA_spec s (s.reg r)⟩, ⟨_, rfl, orA_spec s s.readM⟩, fun d8 => ⟨_, rfl, orA_spec s d8⟩⟩

theorem rlc8_eq_rotateLeft (x : Byte) (f : Flags) : (rlc8 x f).1 = x.rotateLeft 1 := by
  have h : ∀ x : Byte, BitVec.ofNat 8 (x.toNat * 2 + (x.getLsbD 7).toNat) = x.rotateLeft 1 := by decide
  exact h x

theorem rrc8_eq_rotateRight (x : Byte) (f : Flags) : (rrc8 x f).1 = x.rotateRight 1 := by
  have h : ∀ x : Byte, BitVec.ofNat 8 (x.toNat / 2 + 128 * (x.getLsbD 0).toNat) = x.rotateRight 1 := by decide
  exact h x

/-- RAL moves each bit of A one place up, and CY into bit 0 (R152). -/
theorem ral8_bits (x : Byte) (f : Flags) :
    (∀ j < 7, (ral8 x f).1.getLsbD (j + 1) = x.getLsbD j) ∧ (ral8 x f).1.getLsbD 0 = f.carry := by
  have hbit (j : Nat) : (x.toNat * 2 + f.carry.toNat).testBit j =
      if j < 1 then f.carry.toNat.testBit j else x.toNat.testBit (j - 1) := by
    rw [Nat.mul_comm]
    exact Nat.testBit_two_pow_mul_add (i := 1) x.toNat f.carry.toNat_lt j
  refine ⟨fun j hj => ?_, ?_⟩
  · rw [ral8, BitVec.getLsbD_ofNat, hbit, if_neg (by omega), decide_eq_true (by omega : j + 1 < 8), Bool.true_and]
    exact BitVec.testBit_toNat x
  · rw [ral8, BitVec.getLsbD_ofNat, hbit, if_pos Nat.zero_lt_one]
    cases f.carry <;> rfl

/-- RAR moves each bit of A one place down, and CY into bit 7 (R153). -/
theorem rar8_bits (x : Byte) (f : Flags) :
    (∀ j < 7, (rar8 x f).1.getLsbD j = x.getLsbD (j + 1)) ∧ (rar8 x f).1.getLsbD 7 = f.carry := by
  have hx : x.toNat / 2 < 2 ^ 7 := by have := x.isLt; omega
  have hbit (j : Nat) : (x.toNat / 2 + 128 * f.carry.toNat).testBit j =
      if j < 7 then (x.toNat / 2).testBit j else f.carry.toNat.testBit (j - 7) := by
    rw [Nat.add_comm]
    exact Nat.testBit_two_pow_mul_add (i := 7) f.carry.toNat hx j
  refine ⟨fun j hj => ?_, ?_⟩
  · rw [rar8, BitVec.getLsbD_ofNat, hbit, if_pos hj, ← Nat.testBit_succ, decide_eq_true (by omega : j < 8),
      Bool.true_and]
    exact BitVec.testBit_toNat x
  · rw [rar8, BitVec.getLsbD_ofNat, hbit, if_neg (Nat.lt_irrefl 7)]
    cases f.carry <;> rfl

/-- Settles O33: the bits of each rotate's result. -/
theorem rotatesMoveEveryBit : Obligations.RotatesMoveEveryBit := by
  intro s
  obtain ⟨hral, hral0⟩ := ral8_bits s.a s.flags
  obtain ⟨hrar, hrar7⟩ := rar8_bits s.a s.flags
  exact ⟨⟨_, rfl, rlc8_eq_rotateLeft s.a s.flags, rfl, rfl⟩, ⟨_, rfl, rrc8_eq_rotateRight s.a s.flags, rfl, rfl⟩,
    ⟨_, rfl, hral, hral0, rfl, rfl⟩, ⟨_, rfl, hrar, hrar7, rfl, rfl⟩⟩

/-- Settles O34: complementing a byte subtracts it from 255. -/
theorem complementAndCarrySpecials : Obligations.ComplementAndCarrySpecials := by
  intro s
  refine ⟨⟨_, rfl, ?_, rfl⟩, rfl, rfl⟩
  have h : ∀ x : Byte, (x ^^^ 0xFF#8).toNat = 255 - x.toNat := by decide
  exact h s.a

/-! ### The ring of A and CY (R152, R153) -/

/-- A and CY as one 9-bit number, CY its top bit. -/
def ring (s : State) : Nat := s.a.toNat + 256 * s.flags.carry.toNat

/-- The state whose ring is the given 9-bit number, all else as before. -/
def withRing (s : State) (n : Nat) : State :=
  { s with a := BitVec.ofNat 8 n, flags := { s.flags with carry := decide (256 ≤ n) } }

/-- One place up the ring: the top bit comes round to bit 0. -/
def ringUp (n : Nat) : Nat := n % 256 * 2 + n / 256

/-- One place down the ring: bit 0 comes round to the top. -/
def ringDown (n : Nat) : Nat := n / 2 + 256 * (n % 2)

theorem ring_lt (s : State) : ring s < 512 := by
  have ha := s.a.isLt
  have hc := s.flags.carry.toNat_lt
  unfold ring
  omega

theorem ring_withRing (s : State) {n : Nat} (h : n < 512) : ring (withRing s n) = n := by
  by_cases hn : 256 ≤ n <;> simp [ring, withRing, hn] <;> omega

@[simp] theorem withRing_withRing (s : State) (m n : Nat) : withRing (withRing s m) n = withRing s n := rfl

@[simp] theorem withRing_ring (s : State) : withRing s (ring s) = s := by
  have ha := s.a.isLt
  have hvalue : BitVec.ofNat 8 (ring s) = s.a := by
    apply BitVec.eq_of_toNat_eq
    rw [ring, BitVec.toNat_ofNat]
    omega
  have hcarry : decide (256 ≤ ring s) = s.flags.carry := by
    cases hc : s.flags.carry <;> simp [ring, hc]
    omega
  rw [withRing, hvalue, hcarry]

/-- RAL moves the ring one place up: bit 7 of A becomes the top bit, and the old top bit bit 0. -/
theorem exec_ral_eq (s : State) : exec .ral s = .next (withRing s (ringUp (ring s))) := by
  have ha := s.a.isLt
  have hc := s.flags.carry.toNat_lt
  have hup : ringUp (ring s) = s.a.toNat * 2 + s.flags.carry.toNat := by unfold ringUp ring; omega
  have hcarry : s.a.getLsbD 7 = decide (256 ≤ s.a.toNat * 2 + s.flags.carry.toNat) := by
    rw [Bool.eq_iff_iff, getLsbD_seven_iff, decide_eq_true_iff]
    omega
  rw [withRing, hup, ← hcarry]
  rfl

/-- RAR moves the ring one place down: the old top bit becomes bit 7 of A, and bit 0 the top bit. -/
theorem exec_rar_eq (s : State) : exec .rar s = .next (withRing s (ringDown (ring s))) := by
  have ha := s.a.isLt
  have hc := s.flags.carry.toNat_lt
  have hdown : ringDown (ring s) = s.a.toNat / 2 + 128 * s.flags.carry.toNat + 256 * (s.a.toNat % 2) := by
    unfold ringDown ring
    omega
  have hvalue : BitVec.ofNat 8 (ringDown (ring s)) = BitVec.ofNat 8 (s.a.toNat / 2 + 128 * s.flags.carry.toNat) := by
    apply BitVec.eq_of_toNat_eq
    rw [hdown, BitVec.toNat_ofNat, BitVec.toNat_ofNat, Nat.add_mul_mod_self_left]
  have hcarry : s.a.getLsbD 0 = decide (256 ≤ ringDown (ring s)) := by
    rw [Bool.eq_iff_iff, getLsbD_zero_iff, decide_eq_true_iff, hdown]
    omega
  rw [withRing, hvalue, ← hcarry]
  rfl

/-- Running an instruction that moves the ring by `f`, `k` times, moves it by `f` `k` times. -/
theorem runInstrs_replicate_ring {i : Instr} {f : Nat → Nat} (hf : ∀ n, n < 512 → f n < 512)
    (hi : ∀ s, exec i s = .next (withRing s (f (ring s)))) (k : Nat) (s : State) :
    runInstrs (List.replicate k i) s = .next (withRing s (f^[k] (ring s))) := by
  induction k generalizing s with
  | zero => simp [runInstrs]
  | succ k ih =>
    rw [List.replicate_succ, runInstrs, hi]
    simp only [ih, withRing_withRing, ring_withRing s (hf _ (ring_lt s)), Function.iterate_succ_apply]

/-- Settles O35: nine places up or down a ring of nine bits is all the way round. -/
theorem nineRotatesThroughCarryRestore : Obligations.NineRotatesThroughCarryRestore := by
  intro s
  have hup : ∀ n < 512, ringUp n < 512 := by unfold ringUp; omega
  have hdown : ∀ n < 512, ringDown n < 512 := by unfold ringDown; omega
  have hup9 : ∀ (x : Byte) (c : Bool), ringUp^[9] (x.toNat + 256 * c.toNat) = x.toNat + 256 * c.toNat := by decide
  have hdown9 : ∀ (x : Byte) (c : Bool), ringDown^[9] (x.toNat + 256 * c.toNat) = x.toNat + 256 * c.toNat := by decide
  have hup9 : ringUp^[9] (ring s) = ring s := hup9 s.a s.flags.carry
  have hdown9 : ringDown^[9] (ring s) = ring s := hdown9 s.a s.flags.carry
  have hdownUp : ∀ n < 512, ringDown (ringUp n) = n := by unfold ringUp ringDown; omega
  refine ⟨?_, ?_, ?_⟩
  · rw [runInstrs_replicate_ring hup exec_ral_eq, hup9, withRing_ring]
  · rw [runInstrs_replicate_ring hdown exec_rar_eq, hdown9, withRing_ring]
  · simp only [runInstrs, exec_ral_eq, exec_rar_eq, withRing_withRing, ring_withRing s (hup _ (ring_lt s)),
      hdownUp _ (ring_lt s), withRing_ring]

end Sys2Proof.Safety
end

/-! ## Control transfer and the stack (R160 to R203) -/

section
namespace Sys2Proof.Safety

open Sys2Proof.Machine

/-! ### Jumps -/

theorem jumpIf_eq (s : State) (cond : Cond) (addr : Word) :
    s.jumpIf cond addr = { s with pc := if condHolds cond s.flags then addr else s.pc } := by
  unfold State.jumpIf
  split <;> rfl

/-- A jump on a flag being set. -/
theorem goesTo_of_jumpIf {i : Instr} {s : State} {cond : Cond} {addr : Word} {b : Bool}
    (e : exec i s = .next (s.jumpIf cond addr)) (hc : condHolds cond s.flags = b) :
    GoesTo i s (if b then addr else s.pc) := by
  rw [GoesTo, e, jumpIf_eq, hc]

/-- A jump on a flag being clear. -/
theorem goesTo_of_jumpIf_not {i : Instr} {s : State} {cond : Cond} {addr : Word} {b : Bool}
    (e : exec i s = .next (s.jumpIf cond addr)) (hc : condHolds cond s.flags = !b) :
    GoesTo i s (if b then s.pc else addr) := by
  rw [GoesTo, e, jumpIf_eq, hc]
  cases b <;> rfl

/-- Settles O36: the jumps alternate between a flag clear and the same flag set. -/
theorem jumpsGoToTheirTarget : Obligations.JumpsGoToTheirTarget := fun _ _ =>
  ⟨rfl, rfl, goesTo_of_jumpIf_not rfl rfl, goesTo_of_jumpIf rfl rfl, goesTo_of_jumpIf_not rfl rfl,
    goesTo_of_jumpIf rfl rfl, goesTo_of_jumpIf_not rfl rfl, goesTo_of_jumpIf rfl rfl, goesTo_of_jumpIf_not rfl rfl,
    goesTo_of_jumpIf rfl rfl⟩

/-! ### Pushes and calls -/

/-- A push leaves the high byte at SP-1 and the low byte at SP-2 (R11). -/
theorem readByte_push16_halves {s : State} (v : Word) (hm : Memory.wf s.mem = true) :
    (s.push16 v).readByte (s.sp - 1#16) = hiByte v ∧ (s.push16 v).readByte (s.sp - 2#16) = loByte v := by
  have hne : s.sp - 1#16 ≠ s.sp - 2#16 := by bv_omega
  simp [State.readByte_push16 v hm, hne]

/-- An instruction whose meaning is a push, and PC set. -/
theorem pushesAndGoesTo_of_push16 {i : Instr} {s : State} {w target : Word} (hm : Memory.wf s.mem = true)
    (e : exec i s = .next ((s.push16 w).jumpTo target)) : PushesAndGoesTo i s w target := by
  obtain ⟨hhi, hlo⟩ := readByte_push16_halves w hm
  exact ⟨_, e, (congrArg BitVec.toNat hhi).trans (hiByte_toNat w), (congrArg BitVec.toNat hlo).trans (loByte_toNat w),
    SameMemoryBut.push16 s w, rfl⟩

/-- Of two opposite conditional calls, the one whose condition holds is a call, the other nothing (R172). -/
theorem calls_of_opposite_conditions {i j : Instr} {s : State} {cond cond' : Cond} {addr : Word}
    (hm : Memory.wf s.mem = true) (ei : exec i s = .next (s.callIf cond addr))
    (ej : exec j s = .next (s.callIf cond' addr))
    (hc : condHolds cond s.flags = true) (hc' : condHolds cond' s.flags = false) :
    PushesAndGoesTo i s s.pc addr ∧ exec j s = .next s := by
  rw [State.callIf, if_pos hc] at ei
  rw [State.callIf, if_neg (by simp [hc'])] at ej
  exact ⟨pushesAndGoesTo_of_push16 hm ei, ej⟩

/-- Settles O37: CALL and RST are a push with PC set, and each flag decides between two opposite calls. -/
theorem callsPushTheReturnAddress : Obligations.CallsPushTheReturnAddress := by
  intro s hm
  refine ⟨fun n => pushesAndGoesTo_of_push16 hm rfl, fun a16 => ⟨pushesAndGoesTo_of_push16 hm rfl, ?_⟩⟩
  refine ⟨fun h => ?_, fun h => ?_, fun h => ?_, fun h => ?_, fun h => ?_, fun h => ?_, fun h => ?_, fun h => ?_⟩ <;>
    exact calls_of_opposite_conditions hm rfl rfl (by simp [condHolds, h]) (by simp [condHolds, h])

/-! ### Returns and pops -/

/-- A return pops PC (R181). -/
theorem returns_of_doReturn {i : Instr} {s : State} (e : exec i s = .next s.doReturn) : Returns i s :=
  ⟨_, e, top16_toNat s, rfl⟩

/-- Of two opposite conditional returns, the one whose condition holds is a return, the other nothing (R182). -/
theorem returns_of_opposite_conditions {i j : Instr} {s : State} {cond cond' : Cond}
    (ei : exec i s = .next (s.returnIf cond)) (ej : exec j s = .next (s.returnIf cond'))
    (hc : condHolds cond s.flags = true) (hc' : condHolds cond' s.flags = false) :
    Returns i s ∧ exec j s = .next s := by
  rw [State.returnIf, if_pos hc] at ei
  rw [State.returnIf, if_neg (by simp [hc'])] at ej
  exact ⟨returns_of_doReturn ei, ej⟩

/-- Settles O38: each flag decides between two opposite returns. -/
theorem returnsPopTheProgramCounter : Obligations.ReturnsPopTheProgramCounter := by
  intro s
  refine ⟨returns_of_doReturn rfl, fun h => ?_, fun h => ?_, fun h => ?_, fun h => ?_, fun h => ?_, fun h => ?_,
      fun h => ?_, fun h => ?_⟩ <;>
    exact returns_of_opposite_conditions rfl rfl (by simp [condHolds, h]) (by simp [condHolds, h])

/-- What was pushed is on top of the stack. -/
theorem top16_push16 {s : State} (v : Word) (hm : Memory.wf s.mem = true) : (s.push16 v).top16 = v := by
  obtain ⟨hhi, hlo⟩ := readByte_push16_halves v hm
  have haddr : s.sp - 2#16 + 1#16 = s.sp - 1#16 := by bv_omega
  rw [State.top16, State.push16_sp, haddr, hhi, hlo, joinBytes_hiByte_loByte]

theorem sub_two_add_two (x : Word) : x - 2#16 + 2#16 = x := by bv_omega

/-- A return right after a call or a restart is back where it was, but for the bytes pushed. -/
theorem doReturn_callTo {s : State} (addr : Word) (hm : Memory.wf s.mem = true) :
    (s.callTo addr).doReturn = { s with mem := (s.push16 s.pc).mem } := by
  have htop : (s.callTo addr).top16 = s.pc := top16_push16 s.pc hm
  have hsp : (s.callTo addr).sp + 2#16 = s.sp := sub_two_add_two s.sp
  rw [State.doReturn, State.jumpTo, State.drop16, htop, hsp]
  rfl

/-- Settles O39: what the call pushed is what the return pops. -/
theorem returnResumesAfterTheCall : Obligations.ReturnResumesAfterTheCall := by
  intro s hm
  have hmem : SameMemoryBut [s.sp - 1#16, s.sp - 2#16] s { s with mem := (s.push16 s.pc).mem } :=
    SameMemoryBut.push16 s s.pc
  exact ⟨fun a16 => ⟨_, congrArg Host.Outcome.next (doReturn_callTo a16 hm), hmem, rfl⟩,
    fun n => ⟨_, congrArg Host.Outcome.next (doReturn_callTo (restartVector n) hm), hmem, rfl⟩⟩

/-- Settles O40: PSW's high byte is A and its low byte the packed flags. -/
theorem pushesStoreHighByteAbove : Obligations.PushesStoreHighByteAbove := by
  intro s hm
  refine ⟨fun rp => pushesAndGoesTo_of_push16 hm rfl, ?_⟩
  obtain ⟨hhi, hlo⟩ := readByte_push16_halves s.psw hm
  rw [State.psw, hiByte_joinBytes] at hhi
  rw [State.psw, loByte_joinBytes] at hlo
  exact ⟨_, rfl, hhi, (congrArg BitVec.toNat hlo).trans (flagsOfByte_toNat_pack s.flags),
    SameMemoryBut.push16 s s.psw, rfl⟩

/-- Settles O41: the word on top of the stack goes to the pair, or its halves to A and the flags. -/
theorem popsLoadAndPswForcesAuxCarry : Obligations.PopsLoadAndPswForcesAuxCarry := by
  intro s
  constructor
  · intro rp
    refine ⟨_, rfl, ?_, fun rp' h => ?_, ?_, ?_, by cases rp <;> rfl⟩
    · rw [State.stackPair_setStackPair_self]
      exact top16_toNat s
    · rw [State.stackPair_setStackPair_ne _ _ h]
      cases rp' <;> rfl
    · simp
    · simp
  · refine ⟨_, rfl, hiByte_joinBytes _ _, ?_, rfl⟩
    show poppedFlags (loByte s.top16) = _
    rw [State.top16, loByte_joinBytes]
    rfl

/-- The flags pack into a byte with bit 1 set and bits 5 and 3 clear, and unpack from it (R27, R28). -/
theorem flagByte_spec (f : Flags) : flagByte f &&& 0x2A#8 = 0x02#8 ∧ flagsOfByte (flagByte f) = f := by
  obtain ⟨sign, zero, auxCarry, parity, carry⟩ := f
  cases sign <;> cases zero <;> cases auxCarry <;> cases parity <;> cases carry <;> exact ⟨rfl, rfl⟩

/-- Settles O42: PSW is popped as it was pushed, and the flags unpack as they were packed, but for AC, which is
forced. -/
theorem pushPopPswRestoresAllButAuxCarry : Obligations.PushPopPswRestoresAllButAuxCarry := by
  refine ⟨fun s hm => ?_, flagByte_spec⟩
  have htop : (s.push16 s.psw).top16 = s.psw := top16_push16 s.psw hm
  obtain ⟨-, hunpack⟩ := flagByte_spec s.flags
  have hpop : (s.push16 s.psw).drop16.setPsw (s.push16 s.psw).top16 =
      { s with mem := (s.push16 s.psw).mem, flags := { s.flags with auxCarry := true } } := by
    rw [htop, State.setPsw, State.psw, hiByte_joinBytes, loByte_joinBytes, poppedFlags, hunpack, State.drop16,
      State.push16_sp, sub_two_add_two]
    rfl
  exact ⟨_, congrArg Host.Outcome.next hpop, SameMemoryBut.push16 s s.psw, rfl⟩

end Sys2Proof.Safety
end

/-! ## Input and output, machine control, an injected RST (R208 to R214, R282 to R287) -/

section
namespace Sys2Proof.Safety

open Sys2Proof.Machine

/-- Settles O44: the queue of ready inputs decides whether IN answers its oldest byte or the free value. -/
theorem inDrawsAndOutEmits : Obligations.InDrawsAndOutEmits := by
  intro s p
  refine ⟨⟨_, rfl, rfl, fun v rest h => ?_, fun h => ?_, rfl⟩, rfl⟩ <;>
    simp [State.portValue, nextInput, h]

/-- Settles O45: each meaning is the one update the statement names. -/
theorem controlInstructionsDoOneThing : Obligations.ControlInstructionsDoOneThing := fun _ =>
  ⟨rfl, rfl, rfl, rfl, fun _ => rfl⟩

/-- The opcode of RST n has the number in its middle field (R77). -/
theorem rst_opcode_eq (n : BitVec 3) : BitVec.ofNat 8 (0xC7 + 8 * n.toNat) = octalByte 0b11#2 n 0b111#3 := by
  revert n; decide

/-- An accepted RST n is the trap entry in the machine with IE clear. -/
theorem interrupt_rst {s : State} (n : BitVec 3) (hie : s.ie = true) :
    interrupt (BitVec.ofNat 8 (0xC7 + 8 * n.toNat)) s = exec (.rst n) s.acceptInterrupt := by
  have hinstr : s.acceptInterrupt.instrAt (octalByte 0b11#2 n 0b111#3) = .rst n := decodeOp_rst n _ _
  have hpc : s.acceptInterrupt.advancePc 0 = s.acceptInterrupt := by
    rw [State.advancePc, BitVec.add_zero]
  rw [rst_opcode_eq, interrupt, if_pos hie, executeOpcode, hinstr]
  exact congrArg (exec (.rst n)) hpc

/-- Settles O47: the trap entry is a call in the machine with IE clear, and the return pops what it pushed. -/
theorem interruptRestartSavesOnlyPc : Obligations.InterruptRestartSavesOnlyPc := by
  intro s n hie hm
  obtain ⟨t, e, hhi, hlo, hother, ht⟩ : PushesAndGoesTo (.rst n) s.acceptInterrupt s.pc (restartVector n) :=
    pushesAndGoesTo_of_push16 hm rfl
  have hsp : t.sp = s.sp - 2#16 := by rw [ht]; rfl
  have htop : t.top16 = s.pc := by
    apply BitVec.eq_of_toNat_eq
    have haddr : s.sp - 2#16 + 1#16 = s.sp - 1#16 := by bv_omega
    have hhi : (t.readByte (s.sp - 1#16)).toNat = s.pc.toNat / 256 := hhi
    have hlo : (t.readByte (s.sp - 2#16)).toNat = s.pc.toNat % 256 := hlo
    rw [top16_toNat, wordAt, hsp, haddr, hhi, hlo]
    omega
  refine ⟨t, (interrupt_rst n hie).trans e, hhi, hlo, hother, ht, ?_⟩
  show Host.Outcome.next { t with pc := t.top16, sp := t.sp + 2#16 } = _
  rw [htop, hsp, sub_two_add_two]

end Sys2Proof.Safety
end

/-! ## The host's operations (R14, R34, R62) -/

section
namespace Sys2Proof.Safety

open Sys2Proof.Machine

/-- Settles O49: an accessor is one field written, a host write one byte, and a cleared memory lists no byte. -/
theorem hostWritesWhatItNames : Obligations.HostWritesWhatItNames := by
  intro s
  refine ⟨fun r v => ⟨_, rfl, setReg_spec s r v⟩, fun _ => rfl, fun _ => rfl, fun _ => rfl, fun addr v hm => ?_,
    ⟨_, rfl, fun _ => rfl, rfl⟩⟩
  exact ⟨_, rfl, State.readByte_writeByte_self addr v hm, .writeByte v (List.mem_singleton_self addr), rfl⟩

/-- Reading back as many bytes as were written, from where they were written. -/
theorem readBytes_writeBytes {s : State} (addr : Word) (bytes : List Byte) (hm : Memory.wf s.mem = true)
    (hlen : bytes.length ≤ 65536) : (s.writeBytes addr bytes).readBytes addr bytes.length = bytes := by
  refine List.ext_getElem (State.readBytes_length _ _ _) fun j _ hj => ?_
  simp only [State.readBytes, List.getElem_map, List.getElem_range]
  exact State.readByte_writeBytes_get hm hlen hj

/-- Settles O48: a load that fits does not wrap, so an address below or past the bytes is none of theirs. -/
theorem loadThenDumpGivesTheBytes : Obligations.LoadThenDumpGivesTheBytes := by
  intro s addr bytes
  refine ⟨fun hfits hm => ?_, hostLoad_of_not_fits s⟩
  refine ⟨_, hostLoad_of_fits s hfits, readBytes_writeBytes addr bytes hm (by omega), fun k hk => ?_,
    State.writeBytes_eq s addr bytes⟩
  refine State.readByte_writeBytes_ne fun j hj he => ?_
  have := congrArg BitVec.toNat he
  simp only [BitVec.toNat_add, BitVec.toNat_ofNat] at this
  omega

end Sys2Proof.Safety
end

/-! ## The dispatcher's registers and the console (R250 to R257, R263 to R267) -/

section
namespace Sys2Proof.Safety

open Sys2Proof.Machine

/-- Settles O51: the function number is compared with each of the sixteen in turn. -/
theorem unhandledFunctionsAnswerNotFound : Obligations.UnhandledFunctionsAnswerNotFound := by
  intro fn bc de hl s h
  simp only [List.mem_cons, List.not_mem_nil, or_false, not_or] at h
  simp [execute, h, sysUnhandled, rcNotFound]

/-- The low five bits of the low byte, as a number (R266). -/
theorem extractLsb'_loByte (v : Word) : (loByte v).extractLsb' 0 5 = BitVec.ofNat 5 (v.toNat % 32) := by
  apply BitVec.eq_of_toNat_eq
  simp [BitVec.extractLsb'_toNat]

/-- Settles O52: each function is one update of the dispatcher's registers, the bounds and masks being those of the
low byte of DE. -/
theorem dispatcherRegisterFunctions : Obligations.DispatcherRegisterFunctions := by
  intro bc de hl s
  refine ⟨rfl, rfl, fun h => ?_, fun h => ?_, rfl, rfl, ?_, ?_⟩
  · show sysSelectDrive de s = _
    rw [sysSelectDrive, loByte_toNat, if_pos h]
    rfl
  · show sysSelectDrive de s = _
    rw [sysSelectDrive, loByte_toNat, if_neg (Nat.not_lt.2 h)]
    rfl
  · show sysGetUser s = _
    rw [sysGetUser, BitVec.zeroExtend, ← BitVec.ofNat_toNat]
  · show sysSetUser de s = _
    rw [sysSetUser, extractLsb'_loByte]
    rfl

/-- Settles O53: the queue of ready characters decides between its oldest and the free value. -/
theorem consoleCharacterFunctions : Obligations.ConsoleCharacterFunctions := by
  intro bc de hl s
  refine ⟨⟨s.conDrawn, s.conValue, ?_, rfl, fun v rest h => ?_, fun h => ?_, rfl⟩, ?_, rfl⟩
  · show sysReadChar s = _
    rw [sysReadChar, BitVec.zeroExtend, ← BitVec.ofNat_toNat]
  · simp [State.conValue, nextInput, h]
  · simp [State.conValue, nextInput, h]
  · have hlow : loByte de = BitVec.ofNat 8 de.toNat := BitVec.eq_of_toNat_eq (loByte_toNat de)
    show sysWriteChar de s = _
    rw [sysWriteChar, hlow]
    rfl

/-- The address after the first byte's, and `j` more. -/
theorem add_one_add_ofNat (addr : Word) (j : Nat) :
    addr + 1#16 + BitVec.ofNat 16 j = addr + BitVec.ofNat 16 (j + 1) := by
  rw [BitVec.add_assoc, Nat.add_comm j 1, BitVec.ofNat_add]

/-- The bytes before the first `$`, or as many as the fuel allows (R253). -/
theorem dollarString_eq {s : State} {str : List Byte} {addr : Word} {fuel : Nat}
    (hstr : ∀ j (h : j < str.length), s.readByte (addr + BitVec.ofNat 16 j) = str[j] ∧ str[j] ≠ 0x24#8)
    (hend : str.length < fuel ∧ s.readByte (addr + BitVec.ofNat 16 str.length) = 0x24#8 ∨ str.length = fuel) :
    s.dollarString addr fuel = str := by
  induction str generalizing addr fuel with
  | nil =>
    cases fuel with
    | zero => rfl
    | succ fuel =>
      have hdollar : s.readByte addr = 0x24#8 := by simpa using hend
      rw [State.dollarString, if_pos hdollar]
  | cons v vs ih =>
    cases fuel with
    | zero => simp at hend
    | succ fuel =>
      obtain ⟨hv, hne⟩ : s.readByte addr = v ∧ v ≠ 0x24#8 := by
        simpa using hstr 0 (Nat.zero_lt_succ _)
      rw [State.dollarString, hv, if_neg hne]
      congr 1
      refine ih (fun j hj => ?_) ?_
      · rw [add_one_add_ofNat]
        exact hstr (j + 1) (by simpa using hj)
      · rw [add_one_add_ofNat]
        simpa using hend

/-- Settles O54: the string is the bytes before the first `$`. -/
theorem printStringStopsAtTheDollar : Obligations.PrintStringStopsAtTheDollar := by
  intro bc de hl s str hstr hend
  show sysPrintString de s = _
  rw [sysPrintString, dollarString_eq hstr hend]
  rfl

/-- The text of a line is what stands before its first carriage return or line feed (R254). -/
theorem lineText_append {text rest : List Byte} (htext : ∀ v ∈ text, v ≠ 0x0D#8 ∧ v ≠ 0x0A#8)
    (hrest : ∀ v, rest.head? = some v → v = 0x0D#8 ∨ v = 0x0A#8) : lineText (text ++ rest) = text := by
  have hnil : lineText rest = [] := by
    cases rest with
    | nil => rfl
    | cons v vs =>
      obtain rfl | rfl := hrest v rfl <;> rfl
  have hpos : ∀ v ∈ text, (v != 0x0D#8 && v != 0x0A#8) = true := by simpa using htext
  rw [lineText, List.takeWhile_append_of_pos hpos]
  exact (congrArg (text ++ ·) hnil).trans (List.append_nil text)

/-- What a buffered line read leaves, from the characters it accepts (R254). -/
theorem sysReadLine_eq (de : Word) (s : State) :
    sysReadLine de s = (0#16, { s with
      mem := ((s.lineDrawn.writeByte (de + 1#16) (BitVec.ofNat 8 (s.lineAccepted de).length)).writeBytes (de + 2#16)
        (s.lineAccepted de)).mem
      trace := s.trace ++ ((s.lineAccepted de).map Event.conOut ++ [.conOut 0x0D#8, .conOut 0x0A#8])
      inputs := s.lineDrawn.inputs }) := by
  rw [sysReadLine, emitChars_writeBytes_eq]
  rfl

/-- A length byte at an address and at most 255 characters from the next one on: what stands where afterwards. -/
theorem readByte_lengthAndChars {s : State} (addr : Word) (n : Byte) (vs : List Byte) (hm : Memory.wf s.mem = true)
    (hlen : vs.length < 256) :
    ((s.writeByte (addr + 1#16) n).writeBytes (addr + 2#16) vs).readByte (addr + 1#16) = n ∧
    (∀ j (h : j < vs.length), ((s.writeByte (addr + 1#16) n).writeBytes (addr + 2#16) vs).readByte
      (addr + 2#16 + BitVec.ofNat 16 j) = vs[j]) ∧
    ∀ k : Word, k ≠ addr + 1#16 → (∀ j < vs.length, k ≠ addr + 2#16 + BitVec.ofNat 16 j) →
      ((s.writeByte (addr + 1#16) n).writeBytes (addr + 2#16) vs).readByte k = s.readByte k := by
  refine ⟨?_, fun j hj => ?_, fun k hk hks => ?_⟩
  · rw [State.readByte_writeBytes_ne, State.readByte_writeByte_self _ _ hm]
    intro j hj he
    have := congrArg BitVec.toNat he
    simp only [BitVec.toNat_add, BitVec.toNat_ofNat] at this
    omega
  · exact State.readByte_writeBytes_get (State.writeByte_wf _ _ hm) (by omega) hj
  · rw [State.readByte_writeBytes_ne hks, State.readByte_writeByte_ne _ hk]

/-- Settles O55: the text is what the line read accepts, clamped, and stands in memory as `readByte_lengthAndChars`
says. -/
theorem readLineStoresAndEchoesTheText : Obligations.ReadLineStoresAndEchoesTheText := by
  intro bc de hl s text rest hm hline htext hrest
  have hn := (s.readByte de).isLt
  have haccepted : s.lineAccepted de = text.take (s.readByte de).toNat := by
    rw [State.lineAccepted, hline, lineText_append htext hrest]
  have hlength : (text.take (s.readByte de).toNat).length = min text.length (s.readByte de).toNat := by
    rw [List.length_take, Nat.min_comm]
  have hexec : execute 10 bc de hl s = _ := sysReadLine_eq de s
  rw [haccepted] at hexec
  obtain ⟨hcount, hchars, hother⟩ := readByte_lengthAndChars (s := s.lineDrawn) de
    (BitVec.ofNat 8 (text.take (s.readByte de).toNat).length) (text.take (s.readByte de).toNat) hm (by omega)
  refine ⟨_, hexec, ?count, ?chars, ?other, ?trace, rfl, rfl, rfl⟩
  case count =>
    refine (congrArg BitVec.toNat hcount).trans ?_
    rw [BitVec.toNat_ofNat, hlength]
    omega
  case chars =>
    intro j hj hjn
    refine (hchars j (by omega)).trans ?_
    rw [List.getElem_take]
  case other =>
    intro k hk hks
    exact hother k hk (hlength ▸ hks)
  case trace => exact (List.append_assoc ..).symm

end Sys2Proof.Safety
end

/-! ## Keys and patterns (R245 to R247, R259) -/

section
namespace Sys2Proof.Safety

open Sys2Proof.Machine

/-- `up(b)` on numbers (R246). -/
theorem upByte_eq (v : Byte) :
    upByte v = if 0x61 ≤ v.toNat ∧ v.toNat ≤ 0x7A then BitVec.ofNat 8 (v.toNat - 0x20) else v := by
  have h : ∀ v : Byte, upByte v =
    if 0x61 ≤ v.toNat ∧ v.toNat ≤ 0x7A then BitVec.ofNat 8 (v.toNat - 0x20) else v := by decide
  exact h v

theorem fcbKey_getElem? (s : State) (f : Word) {i : Nat} (hi : i < 11) :
    (s.fcbKey f)[i]? = some (upByte (s.readByte (f + 1#16 + BitVec.ofNat 16 i))) := by
  simp [State.fcbKey, State.readBytes, hi]

/-- A key splits into its 8 name bytes and its 3 extension bytes (R246). -/
theorem keyMatch_append {patName name : List Byte} (patExt ext : List Byte) (hp : patName.length = 8)
    (hn : name.length = 8) :
    keyMatch (patName ++ patExt) (name ++ ext) = true ↔
      fieldMatch patName name = true ∧ fieldMatch patExt ext = true := by
  rw [keyMatch, List.take_left' hp, List.take_left' hn, List.drop_left' hp, List.drop_left' hn, Bool.and_eq_true]

/-- A field matches when every byte before the first `*` is `?` or the same byte (R247). -/
theorem fieldMatch_iff {p k : List Byte} (hlen : p.length = k.length) :
    fieldMatch p k = true ↔
      ∀ i (hp : i < p.length) (hk : i < k.length), (∀ j (hj : j < p.length), j ≤ i → p[j] ≠ 0x2A#8) →
        p[i] = 0x3F#8 ∨ p[i] = k[i] := by
  induction p generalizing k with
  | nil => simp [fieldMatch]
  | cons x xs ih =>
    cases k with
    | nil => simp at hlen
    | cons y ys =>
      simp only [fieldMatch, Bool.or_eq_true, Bool.and_eq_true, beq_iff_eq, ih (Nat.succ.inj hlen)]
      constructor
      · rintro (rfl | ⟨hxy, htail⟩) i hp hk hstar
        · exact absurd rfl (hstar 0 (Nat.zero_lt_succ _) (Nat.zero_le _))
        · cases i with
          | zero => exact hxy
          | succ i =>
            exact htail i (Nat.lt_of_succ_lt_succ hp) (Nat.lt_of_succ_lt_succ hk) fun j hj hji =>
              hstar (j + 1) (Nat.succ_lt_succ hj) (Nat.succ_le_succ hji)
      · intro h
        by_cases hx : x = 0x2A#8
        · exact .inl hx
        · refine .inr ⟨h 0 (Nat.zero_lt_succ _) (Nat.zero_lt_succ _) fun j hj hj0 => ?_, fun i hp hk hstar => ?_⟩
          · obtain rfl := Nat.le_zero.1 hj0
            exact hx
          · refine h (i + 1) (Nat.succ_lt_succ hp) (Nat.succ_lt_succ hk) fun j hj hji => ?_
            cases j with
            | zero => exact hx
            | succ j => exact hstar j (Nat.lt_of_succ_lt_succ hj) (Nat.le_of_succ_le_succ hji)

/-- Settles O56: by the lemmas on a key's bytes, on its two fields and on one field. -/
theorem fieldMatchReadsWildcards : Obligations.FieldMatchReadsWildcards := by
  refine ⟨fun s f => ⟨State.fcbKey_length s f, fun i v hi hv => ?_⟩,
    fun patName name patExt ext hp hn _ _ => keyMatch_append patExt ext hp hn, fun p k => fieldMatch_iff⟩
  rw [fcbKey_getElem? s f hi, ← hv, upByte_eq]

/-- The order of keys is byte by byte from the first (R259). -/
theorem keyLt_iff {x y : List Byte} (hlen : x.length = y.length) :
    keyLt x y = true ↔
      ∃ (i : Nat) (hx : i < x.length) (hy : i < y.length), x[i].toNat < y[i].toNat ∧ x.take i = y.take i := by
  induction x generalizing y with
  | nil =>
    have hy : y = [] := List.length_eq_zero_iff.1 hlen.symm
    simp [hy, keyLt]
  | cons a as ih =>
    cases y with
    | nil => simp at hlen
    | cons b bs =>
      simp only [keyLt, Bool.or_eq_true, decide_eq_true_eq, Bool.and_eq_true, beq_iff_eq, ih (Nat.succ.inj hlen)]
      constructor
      · rintro (h | ⟨rfl, i, hx, hy, hlt, htake⟩)
        · exact ⟨0, Nat.zero_lt_succ _, Nat.zero_lt_succ _, h, rfl⟩
        · exact ⟨i + 1, Nat.succ_lt_succ hx, Nat.succ_lt_succ hy, hlt, by simp [htake]⟩
      · rintro ⟨_ | i, hx, hy, hlt, htake⟩
        · exact .inl hlt
        · simp only [List.take_succ_cons, List.cons.injEq] at htake
          obtain ⟨rfl, htake⟩ := htake
          exact .inr ⟨rfl, i, Nat.lt_of_succ_lt_succ hx, Nat.lt_of_succ_lt_succ hy, hlt, htake⟩

end Sys2Proof.Safety
end

/-! ## The file functions (R258 to R262) -/

section
namespace Sys2Proof.Safety

open Sys2Proof.Machine

/-! ### Open -/

theorem recordCount_toNat (blob : List Byte) :
    (recordCount blob).toNat = min 255 ((blob.length + 127) / 128) := by
  rw [recordCount, BitVec.toNat_ofNat]
  omega

/-- Two bytes written at two addresses. -/
theorem readByte_writeByte_writeByte {s : State} {addr addr' : Word} (v v' : Byte) (hm : Memory.wf s.mem = true)
    (hne : addr ≠ addr') :
    ((s.writeByte addr v).writeByte addr' v').readByte addr = v ∧
      ((s.writeByte addr v).writeByte addr' v').readByte addr' = v' ∧
      SameMemoryBut [addr, addr'] s ((s.writeByte addr v).writeByte addr' v') := by
  refine ⟨?_, State.readByte_writeByte_self _ _ (State.writeByte_wf _ _ hm), ?_⟩
  · rw [State.readByte_writeByte_ne _ hne, State.readByte_writeByte_self _ _ hm]
  · exact .trans (.writeByte v (by simp)) (.writeByte v' (by simp))

/-- Settles O57: in a backend in its form an entry is what its drive and key look up. -/
theorem openReportsTheRecordCount : Obligations.OpenReportsTheRecordCount := by
  intro bc de hl s hm hf
  refine ⟨fun x hx hd hk => ?_, fun hnone => ?_⟩
  · have hfile : getFile s.disp.files s.disp.curDrive (s.fcbKey de) = some x.blob := hd ▸ hk ▸ getFile_of_mem hf hx
    have hexec : execute 15 bc de hl s =
        (0#16, (s.writeByte (de + 0x0F#16) (recordCount x.blob)).writeByte (de + 0x20#16) 0#8) := by
      show sysOpen de s = _
      rw [sysOpen, hfile]
      rfl
    obtain ⟨hcount, hcursor, hother⟩ := readByte_writeByte_writeByte (s := s) (recordCount x.blob) 0#8 hm
      (show de + 0x0F#16 ≠ de + 0x20#16 by bv_omega)
    exact ⟨_, hexec, (congrArg BitVec.toNat hcount).trans (recordCount_toNat x.blob), hcursor, hother, rfl⟩
  · show sysOpen de s = _
    rw [sysOpen, getFile_eq_none.2 hnone]
    rfl

/-! ### Search -/

theorem mem_matchingKeys {files : List FileEntry} {drive : Nat} {pat key : List Byte} :
    key ∈ matchingKeys files drive pat ↔ ∃ x ∈ files, x.drive = drive ∧ keyMatch pat x.key = true ∧ x.key = key := by
  simp [matchingKeys, and_assoc]

/-- A key among some that comes after none of them is their first. -/
theorem leastKey_eq_some {ks : List (List Byte)} {k : List Byte} (hk : k ∈ ks) (hmin : ∀ j ∈ ks, keyLt j k = false) :
    leastKey ks = some k := by
  cases h : leastKey ks with
  | none =>
    rw [leastKey_eq_none] at h
    simp [h] at hk
  | some k' =>
    obtain ⟨hk', hmin'⟩ := leastKey_spec h
    rw [keyLt_total (hmin' k hk) (hmin k' hk')]

/-- The directory entry of a key of 11 bytes: byte 0, the key from byte 1, zeros from byte 12 (R259). -/
theorem directoryEntry_spec {key : List Byte} (hlen : key.length = 11) :
    (directoryEntry key).length = 32 ∧ (directoryEntry key)[0]? = some 0#8 ∧
      (∀ j (h : j < key.length), (directoryEntry key)[j + 1]? = some key[j]) ∧
      ∀ j, 12 ≤ j → j < 32 → (directoryEntry key)[j]? = some 0#8 := by
  refine ⟨by simp [directoryEntry, hlen], rfl, fun j h => ?_, fun j hlo hhi => ?_⟩
  · rw [directoryEntry, List.getElem?_cons_succ, List.getElem?_append_left h, List.getElem?_eq_getElem h]
  · obtain ⟨i, rfl⟩ : ∃ i, j = i + 1 := ⟨j - 1, by omega⟩
    rw [directoryEntry, List.getElem?_cons_succ, List.getElem?_append_right (by omega), List.getElem?_replicate,
      if_pos (by omega)]

theorem filesWf_key_length {n : Nat} {files : List FileEntry} (hf : filesWf n files = true) {x : FileEntry}
    (hx : x ∈ files) : x.key.length = 11 := by
  simp only [filesWf, Bool.and_eq_true, List.all_eq_true, beq_iff_eq] at hf
  obtain ⟨-, hall⟩ := hf
  exact (hall x hx).2

/-- `readByte_writeBytes_get`, for a byte that is known to stand in the list. -/
theorem readByte_writeBytes_getElem? {s : State} (addr : Word) {vs : List Byte} (hm : Memory.wf s.mem = true)
    (hlen : vs.length ≤ 65536) {j : Nat} {v : Byte} (h : vs[j]? = some v) :
    (s.writeBytes addr vs).readByte (addr + BitVec.ofNat 16 j) = v := by
  obtain ⟨hj, rfl⟩ := List.getElem?_eq_some_iff.1 h
  exact State.readByte_writeBytes_get hm hlen hj

/-- The first match of a search is the matching key that comes after no other (R259). -/
theorem leastKey_matchingKeys {files : List FileEntry} {drive : Nat} {pat : List Byte} {x : FileEntry} (hx : x ∈ files)
    (hd : x.drive = drive) (hmatch : keyMatch pat x.key = true)
    (hleast : ∀ y ∈ files, y.drive = drive → keyMatch pat y.key = true → keyLt y.key x.key = false) :
    leastKey (matchingKeys files drive pat) = some x.key := by
  refine leastKey_eq_some (mem_matchingKeys.2 ⟨x, hx, hd, hmatch, rfl⟩) fun j hj => ?_
  obtain ⟨y, hy, hyd, hym, rfl⟩ := mem_matchingKeys.1 hj
  exact hleast y hy hyd hym

theorem leastKey_matchingKeys_eq_none {files : List FileEntry} {drive : Nat} {pat : List Byte}
    (h : ∀ x ∈ files, x.drive = drive → keyMatch pat x.key = false) :
    leastKey (matchingKeys files drive pat) = none := by
  refine leastKey_eq_none.2 (List.eq_nil_iff_forall_not_mem.2 fun k hk => ?_)
  obtain ⟨x, hx, hd, hmatch, -⟩ := mem_matchingKeys.1 hk
  simp [h x hx hd] at hmatch

/-- Settles O58: the order of keys is total, so the least matching key is the one the search finds. -/
theorem searchWritesTheFirstMatch : Obligations.SearchWritesTheFirstMatch := by
  refine ⟨fun x y => keyLt_iff, fun bc de hl s hm hf => ⟨fun x hx hd hmatch hleast => ?_, fun hnone => ?_⟩⟩
  · have hexec : execute 17 bc de hl s = (0#16, s.writeBytes s.disp.dma (directoryEntry x.key)) := by
      show sysSearch de s = _
      rw [sysSearch, leastKey_matchingKeys hx hd hmatch hleast]
      rfl
    obtain ⟨hlen, hfirst, hkey, hzeros⟩ := directoryEntry_spec (filesWf_key_length hf hx)
    have hread {j : Nat} {v : Byte} (h : (directoryEntry x.key)[j]? = some v) :
        (s.writeBytes s.disp.dma (directoryEntry x.key)).readByte (s.disp.dma + BitVec.ofNat 16 j) = v :=
      readByte_writeBytes_getElem? s.disp.dma hm (by omega) h
    refine ⟨_, hexec, ?_, fun j h => ?_, fun j hlo hhi => hread (hzeros j hlo hhi), fun k hk => ?_,
      State.writeBytes_eq s _ _⟩
    · simpa using hread hfirst
    · rw [add_one_add_ofNat]
      exact hread (hkey j h)
    · exact State.readByte_writeBytes_ne (hlen ▸ hk)
  · show sysSearch de s = _
    rw [sysSearch, leastKey_matchingKeys_eq_none hnone]
    rfl

/-! ### Delete -/

/-- Settles O59: deleting filters the backend by drive and key. -/
theorem deleteRemovesOneFile : Obligations.DeleteRemovesOneFile := by
  intro bc de hl s
  refine ⟨fun ⟨x, hx, hd, hk⟩ => ?_, fun hnone => ?_⟩
  · have hfound : getFile s.disp.files s.disp.curDrive (s.fcbKey de) ≠ none := fun h =>
      getFile_eq_none.1 h x hx hd hk
    obtain ⟨blob, hblob⟩ := Option.ne_none_iff_exists'.1 hfound
    have hexec : execute 19 bc de hl s = (0#16, { s with disp := { s.disp with
        files := deleteFile s.disp.files s.disp.curDrive (s.fcbKey de) } }) := by
      show sysDelete de s = _
      rw [sysDelete, hblob]
      rfl
    exact ⟨_, hexec, fun x => mem_deleteFile, getFile_deleteFile_self _ _ _,
      fun _ _ h => getFile_deleteFile_ne _ h, rfl⟩
  · show sysDelete de s = _
    rw [sysDelete, getFile_eq_none.2 hnone]
    rfl

/-! ### Sequential read -/

/-- The record of a blob from an offset, filled up with 0x1A (R261). -/
theorem fileRecord_spec (blob : List Byte) (off : Nat) :
    (fileRecord blob off).length = 128 ∧ ∀ j < 128, (fileRecord blob off)[j]? = some (blob.getD (off + j) 0x1A#8) := by
  refine ⟨by simp [fileRecord], fun j hj => ?_⟩
  rw [fileRecord, List.getElem?_map, List.getElem?_range hj]
  rfl

/-- Bytes written at one address and then one byte at another, which may be among them. -/
theorem readByte_writeBytes_writeByte {s : State} (addr addr' : Word) {vs : List Byte} (v : Byte)
    (hm : Memory.wf s.mem = true) (hlen : vs.length ≤ 65536) :
    ((s.writeBytes addr vs).writeByte addr' v).readByte addr' = v ∧
      (∀ j w, vs[j]? = some w → addr + BitVec.ofNat 16 j ≠ addr' →
        ((s.writeBytes addr vs).writeByte addr' v).readByte (addr + BitVec.ofNat 16 j) = w) ∧
      ∀ k : Word, k ≠ addr' → (∀ j < vs.length, k ≠ addr + BitVec.ofNat 16 j) →
        ((s.writeBytes addr vs).writeByte addr' v).readByte k = s.readByte k := by
  refine ⟨State.readByte_writeByte_self _ _ (State.writeBytes_wf _ _ hm), fun j w hw hne => ?_, fun k hk hks => ?_⟩
  · rw [State.readByte_writeByte_ne _ hne]
    exact readByte_writeBytes_getElem? addr hm hlen hw
  · rw [State.readByte_writeByte_ne _ hk, State.readByte_writeBytes_ne hks]

theorem writeBytes_writeByte_eq (s : State) (addr addr' : Word) (vs : List Byte) (v : Byte) :
    (s.writeBytes addr vs).writeByte addr' v = { s with mem := ((s.writeBytes addr vs).writeByte addr' v).mem } := by
  rw [State.writeBytes_eq]
  rfl

/-- What a sequential read of a file does, past its end and before it (R261). -/
theorem sysReadRecord_of_file {de : Word} {s : State} {blob : List Byte} {off : Nat}
    (hfile : getFile s.disp.files s.disp.curDrive (s.fcbKey de) = some blob)
    (hoff : off = (s.readByte (de + 0x20#16)).toNat * 128) :
    sysReadRecord de s = if blob.length ≤ off then (1#16, s) else
      (0#16, (s.writeBytes s.disp.dma (fileRecord blob off)).writeByte (de + 0x20#16)
        (s.readByte (de + 0x20#16) + 1#8)) := by
  subst hoff
  rw [sysReadRecord, hfile]
  rfl

/-- Settles O60: in a backend in its form an entry is what its drive and key look up; the cursor's write comes last.
-/
theorem sequentialReadCopiesOneRecord : Obligations.SequentialReadCopiesOneRecord := by
  intro bc de hl s hm hf
  refine ⟨fun x hx hd hk off hoff => ?_, fun hnone => ?_⟩
  · have hfile : getFile s.disp.files s.disp.curDrive (s.fcbKey de) = some x.blob := hd ▸ hk ▸ getFile_of_mem hf hx
    have hexec : execute 20 bc de hl s = _ := sysReadRecord_of_file hfile hoff
    refine ⟨fun hend => ?_, fun hin => ?_⟩
    · rw [hexec, if_pos hend]
    · rw [if_neg (Nat.not_le.2 hin)] at hexec
      obtain ⟨hlen, hbytes⟩ := fileRecord_spec x.blob off
      obtain ⟨hcursor, hrecord, hother⟩ := readByte_writeBytes_writeByte (s := s) s.disp.dma (de + 0x20#16)
        (s.readByte (de + 0x20#16) + 1#8) hm (vs := fileRecord x.blob off) (by omega)
      refine ⟨_, hexec, ?cursor, fun j hj hne => hrecord j _ (hbytes j hj) hne,
        fun k hk hks => hother k hk (hlen ▸ hks), writeBytes_writeByte_eq s _ _ _ _⟩
      case cursor =>
        rw [hcursor]
        exact BitVec.toNat_add _ _
  · show sysReadRecord de s = _
    rw [sysReadRecord, getFile_eq_none.2 hnone]
    rfl

end Sys2Proof.Safety
end
